-- ==== Sys2Proof/Word.lean ====
section
/-!
DEFINITION. Word.lean: the word types of keypad-core.

Every quantity of the block is unsigned (00_scope.md R12). A bit vector stands here for what the
spec treats as bits: command and response words, their fields, FIFO slots, pin groups, the FIFO
count that STATUS shows. Cell numbers, cursors and debounce counters are `Fin` or `Nat`.
-/

namespace Sys2Proof

/-- A 16-bit command or response word (30_encoding.md R48, R49). -/
abbrev Word := BitVec 16

/-- One FIFO slot (00_scope.md R7), and one byte of a byte-wide transport (20_memory.md R35). -/
abbrev Byte := BitVec 8

/-- A 4-bit field: OP, RSV, IDX, DATA, STATUS, a brightness cell, a FIFO count. -/
abbrev Nibble := BitVec 4

/-- The VALUE field of a response (30_encoding.md R49). -/
abbrev Value := BitVec 12

/-- A flat cell index, and a FIFO slot number: 0..11 (10_state.md R16, 20_memory.md R34). -/
abbrev Cell := Fin 12

end Sys2Proof
end

