-- ==== Sys2Proof/Config.lean ====
section
/-!
DEFINITION. Config.lean: what an implementation of keypad-core fixes (00_scope.md R5 to R11).

The topology, the sub-frame count and the FIFO capacity are fixed values of the spec. The two
parameters the rules depend on are `Params`; the pin polarity is an argument of the pin functions
(R10: "the model takes them as arguments"); the trigger rates are informational (R11).
-/

namespace Sys2Proof.Config

/-- NUM_COLS (R5). -/
abbrev numCols : Nat := 4

/-- NUM_ROWS (R5). -/
abbrev numRows : Nat := 3

/-- NUM_CELLS = NUM_COLS × NUM_ROWS (R5). -/
abbrev numCells : Nat := numCols * numRows

/-- NUM_SUBFRAMES (R6). -/
abbrev numSubframes : Nat := 8

/-- FIFO_CAP (R7). -/
abbrev fifoCap : Nat := 12

/-- LEVEL_W, the width of one brightness cell: "a synthesis-time parameter with value 3 or 4" (R9). -/
inductive LevelW where
  | three
  | four
deriving DecidableEq, Repr

/-- The number LEVEL_W stands for (R9). -/
abbrev LevelW.bits : LevelW → Nat
  | .three => 3
  | .four => 4

/-- The synthesis-time parameters that rules of the spec depend on. They "cannot change at run
time" (R8): no step writes them. -/
structure Params where
  /-- DEBOUNCE_TARGET, an integer of at least 0 (R8). -/
  debounceTarget : Nat
  /-- LEVEL_W (R9). -/
  levelW : LevelW
deriving DecidableEq, Repr

/-- The default parameters: DEBOUNCE_TARGET = 2 (R8) and LEVEL_W = 3 (R9). -/
def Params.default : Params := { debounceTarget := 2, levelW := .three }

/-- LEVEL_MAX = 2^LEVEL_W − 1 (R9). -/
def Params.levelMax (p : Params) : Nat := 2 ^ p.levelW.bits - 1

/-- CNT_W = max(1, ceil(log2(T + 1))) of a debounce target `T` (R8); for T ≥ 1 the ceiling is the number
of binary digits of T. -/
def cntWidth (target : Nat) : Nat := max 1 (if target = 0 then 0 else Nat.log2 target + 1)

/-- CNT_W, the width of a debounce counter (R8). -/
def Params.cntW (p : Params) : Nat := cntWidth p.debounceTarget

/-- The pin polarity parameters, both OPEN (R10): `true` is the level 1. -/
structure Polarity where
  /-- COL_ACTIVE_LEVEL: the level driven on the one enabled LED column line. -/
  colActiveLevel : Bool
  /-- ROW_ON_LEVEL: the level driven on an LED row line whose LED is active. -/
  rowOnLevel : Bool
deriving DecidableEq, Repr

/-- The trigger rates F_LED and F_SW in Hz: informational, "no rule of this spec depends on
them" (R11). That a rate is a whole number of Hz is the model's choice: R11 does not say (DESIGN CHOICE,
log entry 16). -/
structure Rates where
  fLed : Nat
  fSw : Nat
deriving DecidableEq, Repr

/-- The source's design values (R11). -/
def Rates.design : Rates := { fLed := 8000, fSw := 1000 }

/-- LED_TICKs in one full refresh: 4 columns × 8 sub-frames (42_led_multiplexer.md R86). -/
def refreshTicks : Nat := numCols * numSubframes

/-- The full-refresh rate F_LED / 32 in Hz (70_reset_and_hazards.md R122), rounded down to a whole number:
R122 does not say what it is where 32 does not divide F_LED (DESIGN CHOICE, log entry 16). At the design
rate it is exact. -/
def Rates.refreshHz (r : Rates) : Nat := r.fLed / refreshTicks

/-- Each column is driven F_LED / 4 times a second (70_reset_and_hazards.md R122), rounded down to a whole
number where 4 does not divide F_LED (DESIGN CHOICE, log entry 16). At the design rate it is exact. -/
def Rates.columnHz (r : Rates) : Nat := r.fLed / numCols

/-- SW_TICKs from the first sample of a run to its acceptance: (T + 1) × 3
(41_switch_scanner.md R79). -/
def Params.debounceLatencyTicks (p : Params) : Nat := (p.debounceTarget + 1) * numRows

end Sys2Proof.Config
end

