-- ==== Sys2Proof/Syntax.lean ====
section
/-!
DEFINITION. Syntax.lean: the operations of keypad-core, one constructor per row of
spec/opcode_table.json, and what the input ports carry in one clock cycle.
-/

namespace Sys2Proof

/-- The ten operations (00_scope.md R14): the eight commands of 30_encoding.md R51 and the two tick
strobes of R57. IDX and DATA operands are the unsigned integers of R54 and R55; a well-formed
instruction keeps them in their fields (WellFormed.lean). -/
inductive Instr where
  /-- NOP (43_consumer_commands.md R89). -/
  | nop
  /-- SET_LEVEL idx, level (R90). -/
  | setLevel (idx level : Nat)
  /-- GET_LEVEL idx (R91). -/
  | getLevel (idx : Nat)
  /-- GET_SWITCH idx (R92). -/
  | getSwitch (idx : Nat)
  /-- READ_PRESS (R93). -/
  | readPress
  /-- READ_RELEASE (R94). -/
  | readRelease
  /-- GET_STATUS (R95). -/
  | getStatus
  /-- CLEAR_ERR mask, the operand DATA[1:0] (R96). -/
  | clearErr (mask : BitVec 2)
  /-- LED_TICK, the strobe `led_tick` (42_led_multiplexer.md R81). -/
  | ledTick
  /-- SW_TICK, the strobe `sw_tick`, whose operand is `sw_col_in[3:0]`
  (41_switch_scanner.md R70). -/
  | swTick (cols : Nibble)
deriving DecidableEq, Repr

/-- The input ports in one cycle of `clk` (30_encoding.md R47). -/
structure PinsIn where
  /-- `rst`: synchronous reset, active high. -/
  rst : Bool
  /-- `led_tick`: this cycle is one LED_TICK. -/
  ledTick : Bool
  /-- `sw_tick`: this cycle is one SW_TICK. -/
  swTick : Bool
  /-- `sw_col_in`: raw levels of the four switch column lines, sampled only by SW_TICK. -/
  swColIn : Nibble
  /-- `cmd_valid`: a command is presented this cycle. -/
  cmdValid : Bool
  /-- `cmd`: the command word, ignored where `cmd_valid` is 0. -/
  cmd : Word
deriving DecidableEq, Repr

/-- A cycle in which no port asks for anything. -/
def PinsIn.idle : PinsIn :=
  { rst := false, ledTick := false, swTick := false, swColIn := 0, cmdValid := false, cmd := 0 }

/-- The pseudo-instructions (30_encoding.md R60): names of an assembler, no rows of the table. -/
inductive Pseudo where
  | ledOff (idx : Nat)
  | ledFull (idx : Nat)
  | clearPressErr
  | clearReleaseErr
  | clearAllErr
deriving DecidableEq, Repr

end Sys2Proof
end

