-- ==== Sys2Proof/WellFormed.lean ====
section
/-!
DEFINITION. WellFormed.lean: an instruction whose operands fit their fields.
-/

namespace Sys2Proof

/-- IDX and DATA are four-bit fields (30_encoding.md R48, R54, R55), and an assembler "refuses an
operand that does not fit its field" (R59). IDX 12 to 15 "are well-formed spellings that name no
cell" (R54), and so is a level above LEVEL_MAX: both checks belong to execution (R58). The mask of
CLEAR_ERR and the columns of SW_TICK fit their fields by their types. -/
def Instr.wellFormed : Instr → Bool
  | .nop => true
  | .setLevel idx level => decide (idx < 16) && decide (level < 16)
  | .getLevel idx => decide (idx < 16)
  | .getSwitch idx => decide (idx < 16)
  | .readPress => true
  | .readRelease => true
  | .getStatus => true
  | .clearErr _ => true
  | .ledTick => true
  | .swTick _ => true

end Sys2Proof
end

