-- ==== Sys2Proof/Decode.lean ====
section
/-!
DEFINITION. Decode.lean: from command words and input pins to operations, and back.

`decode` is total on 16-bit words (30_encoding.md R58): every word is one of the eight commands or
ILLEGAL, here with the name of the reserved field that made it so. The two ticks have no command
word (R57): `operations` reads them from their strobes.
-/

namespace Sys2Proof

/-- Why a word spells no command. All three complete with status ILLEGAL
(60_exceptions.md R102). -/
inductive DecodeError where
  /-- OP is 8 to 15 (30_encoding.md R53). -/
  | reservedOpcode
  /-- RSV is not zero (R52). -/
  | reservedRsv
  /-- A bit of IDX or DATA that the command must leave 0 is set (R52). -/
  | reservedOperand
deriving DecidableEq, Repr

/-! ## Fields of a command word (30_encoding.md R48) -/

/-- `w[15:12]`. -/
def opField (w : Word) : Nibble := w.extractLsb' 12 4

/-- `w[11:8]`. -/
def rsvField (w : Word) : Nibble := w.extractLsb' 8 4

/-- `w[7:4]`. -/
def idxField (w : Word) : Nibble := w.extractLsb' 4 4

/-- `w[3:0]`. -/
def dataField (w : Word) : Nibble := w.extractLsb' 0 4

/-! ## Decoding -/

/-- The command, or the refusal of a reserved operand bit. -/
def okWhen (ok : Bool) (i : Instr) : Except DecodeError Instr :=
  if ok then .ok i else .error .reservedOperand

/-- Decode(w) of 30_encoding.md R58. -/
def decode (w : Word) : Except DecodeError Instr :=
  let idx := idxField w
  let data := dataField w
  if 8 ≤ (opField w).toNat then .error .reservedOpcode
  else if rsvField w ≠ 0 then .error .reservedRsv
  else
    match (opField w).toNat with
    | 0 => okWhen (idx == 0 && data == 0) .nop
    | 1 => okWhen true (.setLevel idx.toNat data.toNat)
    | 2 => okWhen (data == 0) (.getLevel idx.toNat)
    | 3 => okWhen (data == 0) (.getSwitch idx.toNat)
    | 4 => okWhen (idx == 0 && data == 0) .readPress
    | 5 => okWhen (idx == 0 && data == 0) .readRelease
    | 6 => okWhen (idx == 0 && data == 0) .getStatus
    | 7 => okWhen (idx == 0 && data.extractLsb' 2 2 == 0) (.clearErr (data.extractLsb' 0 2))
    | _ => .error .reservedOpcode

/-- The operations a cycle accepts, in the order of 20_memory.md R40: the command, then SW_TICK,
then LED_TICK. A command word that spells no command is still an accepted command: it has a
response. A cycle with `rst` = 1 accepts none (70_reset_and_hazards.md R114). -/
def operations (p : PinsIn) : List (Except DecodeError Instr) :=
  if p.rst then []
  else
    (if p.cmdValid then [decode p.cmd] else []) ++
    (if p.swTick then [.ok (.swTick p.swColIn)] else []) ++
    (if p.ledTick then [.ok .ledTick] else [])

/-! ## Encoding -/

/-- A command word from its OP, IDX and DATA, with RSV = 0 (30_encoding.md R48). -/
def commandWord (op idx data : Nibble) : Word := op ++ (0 : Nibble) ++ idx ++ data

/-- The word of a command (30_encoding.md R51); the two strobes have none (R57). -/
def encodeWord : Instr → Option Word
  | .nop => some (commandWord 0x0 0 0)
  | .setLevel idx level => some (commandWord 0x1 (BitVec.ofNat 4 idx) (BitVec.ofNat 4 level))
  | .getLevel idx => some (commandWord 0x2 (BitVec.ofNat 4 idx) 0)
  | .getSwitch idx => some (commandWord 0x3 (BitVec.ofNat 4 idx) 0)
  | .readPress => some (commandWord 0x4 0 0)
  | .readRelease => some (commandWord 0x5 0 0)
  | .getStatus => some (commandWord 0x6 0 0)
  | .clearErr mask => some (commandWord 0x7 0 ((0 : BitVec 2) ++ mask))
  | .ledTick => none
  | .swTick _ => none

/-- The pins of a cycle that presents one command word and nothing else. -/
def presentCommand (w : Word) : PinsIn := { PinsIn.idle with cmdValid := true, cmd := w }

/-- The pins of a cycle with one SW_TICK and nothing else (30_encoding.md R57). -/
def presentSwTick (cols : Nibble) : PinsIn := { PinsIn.idle with swTick := true, swColIn := cols }

/-- The pins of a cycle with one LED_TICK and nothing else (30_encoding.md R57). -/
def presentLedTick : PinsIn := { PinsIn.idle with ledTick := true }

/-- The pins that present a strobe alone; an operation that is no strobe has none. -/
def presentStrobe : Instr → PinsIn
  | .ledTick => presentLedTick
  | .swTick cols => presentSwTick cols
  | .nop | .setLevel _ _ | .getLevel _ | .getSwitch _ => PinsIn.idle
  | .readPress | .readRelease | .getStatus | .clearErr _ => PinsIn.idle

/-- The encoder for every operation: the pins of the one cycle that presents it alone. -/
def encode (i : Instr) : PinsIn :=
  match encodeWord i with
  | some w => presentCommand w
  | none => presentStrobe i

/-! ## A byte-wide transport (20_memory.md R35): the low byte goes first -/

/-- The two bytes of a word in the order a byte-wide transport sends them. -/
def transportBytes (w : Word) : List Byte := [w.extractLsb' 0 8, w.extractLsb' 8 8]

/-- The first word of a byte stream and what follows it; none where no whole word is left. -/
def transportWord : List Byte → Option (Word × List Byte)
  | lo :: hi :: rest => some (hi ++ lo, rest)
  | _ => none

/-- Decoding any bytes: the command of the first word, or the reason it spells none, with the rest
of the bytes; none where no whole word is left. -/
def decodeBytes (bytes : List Byte) : Option (Except DecodeError Instr × List Byte) :=
  (transportWord bytes).map fun (w, rest) => (decode w, rest)

/-! ## The opcode table's words -/

/-- The command word of a table row of `nbits` bits whose bits are `w`. A row of no bits (a strobe)
has no word, and a word of more than 16 bits is no command word (30_encoding.md R48). -/
def tableWord (nbits w : Nat) : Option Word :=
  if nbits = 0 ∨ 2 ^ 16 ≤ w % 2 ^ nbits then none else some (BitVec.ofNat 16 (w % 2 ^ nbits))

/-- What the decoder reads from a table row's word; none where it refuses. -/
def decodeTableWord (nbits w : Nat) : Option Instr :=
  match tableWord nbits w with
  | none => none
  | some word =>
    match decode word with
    | .ok i => some i
    | .error _ => none

/-- The pins that present a table row's word; an idle cycle where the row has no word. -/
def presentTableWord (nbits w : Nat) : PinsIn :=
  match tableWord nbits w with
  | none => PinsIn.idle
  | some word => presentCommand word

end Sys2Proof
end

