-- ==== Sys2Proof/Machine/State.lean ====
section
/-!
DEFINITION. Machine/State.lean: the state of keypad-core (10_state.md R15), the ways a step can
stop, and the state after reset (70_reset_and_hazards.md R115).
-/

namespace Sys2Proof.Machine

open Sys2Proof.Config

/-- The two FIFO instances (00_scope.md R7). -/
inductive Channel where
  /-- PRESS: indices of cells that became pressed (40_event_fifo.md R67). -/
  | press
  /-- RELEASE: indices of cells that became released (R67). -/
  | release
deriving DecidableEq, Repr

/-- One event FIFO (10_state.md R21). -/
structure Fifo where
  /-- The twelve 8-bit slots. -/
  mem : Vector Byte 12
  /-- The slot of the oldest entry. -/
  head : Cell
  /-- The next free slot. -/
  tail : Cell
  /-- The occupied count, a 4-bit register whose legal values are 0..12. -/
  count : Nibble
deriving DecidableEq, Repr

/-- The LED state grid: twelve cells of LEVEL_W bits (10_state.md R15, R17). LEVEL_W is fixed with the
build (00_scope.md R9): no operation writes it. -/
structure LevelGrid where
  /-- LEVEL_W of the build. -/
  width : LevelW
  /-- The cells. -/
  cells : Vector (BitVec width.bits) 12
deriving DecidableEq, Repr

/-- The switch debounce counters: twelve counters of CNT_W bits (10_state.md R15, R19). DEBOUNCE_TARGET, and
CNT_W with it, is fixed with the build (00_scope.md R8): no operation writes it. -/
structure CountGrid where
  /-- DEBOUNCE_TARGET of the build. -/
  target : Nat
  /-- The counters. -/
  cells : Vector (BitVec (cntWidth target)) 12
deriving DecidableEq, Repr

/-- The state of the block: the record of 10_state.md R15, and one field of the model's own, `inputs`. The
two grids whose cells a parameter of the build makes wider or narrower carry that parameter (log entry 3).
A cell whose spec type is one bit is a `Bool`, `true` for logic 1. -/
structure State where
  /-- `lvl[i]`: the brightness level of LED cell `i`, LEVEL_W bits (R17). -/
  lvl : LevelGrid
  /-- `last[i]`: the raw level of switch cell `i` at its last scan (R18). -/
  last : Vector Bool 12
  /-- `cnt[i]`: the debounce counter of switch cell `i`, 0..DEBOUNCE_TARGET in CNT_W bits (R19). -/
  cnt : CountGrid
  /-- `conf[i]`: the confirmed state of switch cell `i`, `false` pressed, `true` released (R20). -/
  conf : Vector Bool 12
  /-- `fifo[PRESS]` (R21). -/
  press : Fifo
  /-- `fifo[RELEASE]` (R21). -/
  release : Fifo
  /-- `ledCol − 1`: the LED column cursor, biased as R15 allows (R23). -/
  ledColIx : Fin 4
  /-- `subFrame − 1`: the brightness sub-frame cursor, biased (R24). -/
  subFrameIx : Fin 8
  /-- `swRow − 1`: the switch row cursor, biased (R25). -/
  swRowIx : Fin 3
  /-- `ledColEn`: which LED column line is driven (R26). -/
  ledColEn : BitVec 4
  /-- `ledRowOn`: the logical state of the LED row outputs (R27). -/
  ledRowOn : BitVec 3
  /-- `errFull[PRESS]` (R29). -/
  errPressFull : Bool
  /-- `errFull[RELEASE]` (R29). -/
  errReleaseFull : Bool
  /-- `rspValid` (R30). -/
  rspValid : Bool
  /-- `rsp` (R30). -/
  rsp : Word
  /-- The model's own: what the input ports carry in the coming cycles, the next cycle first
  (60_exceptions.md R111, R113: free inputs). -/
  inputs : List PinsIn
deriving DecidableEq, Repr

/-- The reasons a step can fault. There are none: the block has no traps, and every error is a status
code in a response or a sticky flag (60_exceptions.md R107), so no operation raises a fault. -/
inductive Fault where
deriving DecidableEq, Repr

/-- The reasons a step can refuse an operation. -/
inductive Refusal where
  /-- An arm of `exec` whose instruction has no meaning yet: raised by no arm of this model (safe). -/
  | notModelled (mnemonic : String)
deriving DecidableEq, Repr

/-- An empty FIFO (R21, R115). What its slots hold after reset is unspecified and never observable
(R33); 0 is the model's DESIGN CHOICE (log entry 2). -/
def Fifo.reset : Fifo := { mem := Vector.replicate 12 0, head := 0, tail := 0, count := 0 }

/-- The state right after reset (R115) of a build with the parameters `p`, with `inputs` to come. -/
def State.resetOf (p : Params) (inputs : List PinsIn) : State :=
  { lvl := { width := p.levelW, cells := Vector.replicate 12 0 }
    last := Vector.replicate 12 true
    cnt := { target := p.debounceTarget, cells := Vector.replicate 12 0 }
    conf := Vector.replicate 12 true
    press := Fifo.reset
    release := Fifo.reset
    ledColIx := 0
    subFrameIx := 0
    swRowIx := 0
    ledColEn := 0b0000
    ledRowOn := 0b000
    errPressFull := false
    errReleaseFull := false
    rspValid := false
    rsp := 0x0000
    inputs := inputs }

/-- The state right after reset, of a build with the default parameters (00_scope.md R8, R9), with no input
waiting (log entries 1 and 3). -/
def State.reset : State := State.resetOf Params.default []

end Sys2Proof.Machine
end

