-- ==== Sys2Proof/Machine/Operands.lean ====
section
/-!
DEFINITION. Machine/Operands.lean: widths, cell addressing and operand checks.
-/

namespace Sys2Proof.Machine

open Sys2Proof.Config

/-! ## Notation of 00_scope.md R12 -/

/-- `zext_N(v)`. -/
def zext {m : Nat} (n : Nat) (v : BitVec m) : BitVec n := v.setWidth n

/-- `sext_N(v)`: "defined for completeness … and is never used" (R12). -/
def sext {m : Nat} (n : Nat) (v : BitVec m) : BitVec n := v.signExtend n

/-- `onehotN(k)`: the `N`-bit value with only bit `k` set. -/
def onehot (n k : Nat) : BitVec n := BitVec.twoPow n k

/-! ## Cell addressing (10_state.md R16) -/

/-- The flat index of the cell in row `r` and column `c`, both zero-based. -/
def cellAt (r : Fin 3) (c : Fin 4) : Cell := ⟨r.val * 4 + c.val, by omega⟩

/-- The row of a cell, `i div 4`. -/
def rowOf (i : Cell) : Fin 3 := ⟨i.val / 4, by omega⟩

/-- The column of a cell, `i mod 4`. -/
def colOf (i : Cell) : Fin 4 := ⟨i.val % 4, by omega⟩

/-- The cell an IDX operand names; 12 and above name none (30_encoding.md R54). -/
def cellOfIdx (idx : Nat) : Option Cell := if h : idx < 12 then some ⟨idx, h⟩ else none

/-- One element of an array of the state (00_scope.md R13, `A[i]`). -/
def readCell {α : Type} (grid : Vector α 12) (i : Cell) : α := grid[i.val]

/-- `A[i] <- v` (R13). -/
def writeCell {α : Type} (grid : Vector α 12) (i : Cell) (v : α) : Vector α 12 :=
  grid.set i.val v i.isLt

/-! ## The two grids whose width the build fixes (10_state.md R17, R19)

The values are unsigned numbers (00_scope.md R12). A write stores the low bits of its value, as many as the
element has; every operation writes a value that fits (log entry 17). -/

/-- `lvl[i]`, LEVEL_W bits. -/
def levelCell (g : LevelGrid) (i : Cell) : BitVec g.width.bits := readCell g.cells i

/-- `lvl[i]` as a number. -/
def readLevel (g : LevelGrid) (i : Cell) : Nat := (levelCell g i).toNat

/-- `lvl[i] <- v`. -/
def writeLevel (g : LevelGrid) (i : Cell) (v : Nat) : LevelGrid :=
  { g with cells := writeCell g.cells i (BitVec.ofNat g.width.bits v) }

/-- `cnt[i]` as a number. -/
def readCount (g : CountGrid) (i : Cell) : Nat := (readCell g.cells i).toNat

/-- `cnt[i] <- v`. -/
def writeCount (g : CountGrid) (i : Cell) (v : Nat) : CountGrid :=
  { g with cells := writeCell g.cells i (BitVec.ofNat (cntWidth g.target) v) }

/-! ## The cursors at the values the spec gives them (10_state.md R23, R24, R25) -/

/-- `ledCol`, 1..4. -/
abbrev State.ledCol (s : State) : Nat := s.ledColIx.val + 1

/-- `subFrame`, 1..8. -/
abbrev State.subFrame (s : State) : Nat := s.subFrameIx.val + 1

/-- `swRow`, 1..3. -/
abbrev State.swRow (s : State) : Nat := s.swRowIx.val + 1

/-! ## Parameters of the build -/

/-- The synthesis-time parameters of the build the state belongs to (00_scope.md R8, R9). -/
def State.params (s : State) : Params := { debounceTarget := s.cnt.target, levelW := s.lvl.width }

/-- `T`, the value of DEBOUNCE_TARGET (00_scope.md R8). -/
abbrev State.target (s : State) : Nat := s.cnt.target

/-- `LEVEL_MAX` (00_scope.md R9). -/
abbrev State.levelMax (s : State) : Nat := s.params.levelMax

end Sys2Proof.Machine
end

