-- ==== Sys2Proof/Machine/Flags.lean ====
section
/-!
DEFINITION. Machine/Flags.lean: the sticky error flags, the completion statuses and the STATUS word.
-/

namespace Sys2Proof.Machine

/-- `fifo[F]` (10_state.md R21). -/
def State.fifo (s : State) : Channel → Fifo
  | .press => s.press
  | .release => s.release

/-- `fifo[F] <- f`. -/
def State.setFifo (s : State) (F : Channel) (f : Fifo) : State :=
  match F with
  | .press => { s with press := f }
  | .release => { s with release := f }

/-- `errFull[F]` (10_state.md R29). -/
def State.errFull (s : State) : Channel → Bool
  | .press => s.errPressFull
  | .release => s.errReleaseFull

/-- `errFull[F] <- b`. -/
def State.setErrFull (s : State) (F : Channel) (b : Bool) : State :=
  match F with
  | .press => { s with errPressFull := b }
  | .release => { s with errReleaseFull := b }

/-- `raise BufferFull(F)`: recorded in the sticky flag, with no transfer of control
(00_scope.md R13, 60_exceptions.md R100). -/
def raiseBufferFull (F : Channel) (s : State) : State := s.setErrFull F true

/-- Clear `errFull[F]` where `selected` says so (43_consumer_commands.md R96). -/
def clearFlag (selected : Bool) (F : Channel) (s : State) : State :=
  if selected then s.setErrFull F false else s

/-- Completion statuses (60_exceptions.md R99). -/
inductive Status where
  | ok
  | empty
  | illegal
  | badIndex
  | badValue
deriving DecidableEq, Repr

/-- The status code in `rsp[15:12]` (R99). -/
def statusCode : Status → Nibble
  | .ok => 0
  | .empty => 1
  | .illegal => 2
  | .badIndex => 3
  | .badValue => 4

/-- The STATUS word (10_state.md R31): RFULLERR, PFULLERR, RCOUNT, PCOUNT from bit 9 down, bits
[11:10] reading as 0. -/
def statusWord (s : State) : Value :=
  (0 : BitVec 2) ++ BitVec.ofBool (s.errFull .release) ++ BitVec.ofBool (s.errFull .press) ++
    (s.fifo .release).count ++ (s.fifo .press).count

end Sys2Proof.Machine
end

