-- ==== Sys2Proof/Machine/Ops.lean ====
section
/-!
DEFINITION. Machine/Ops.lean: the shared operations over the state: the response register, the FIFO
primitives, the reset of a running block, and the arrays of 20_memory.md R34 read and written by
name and index.

The block has no exception to take and none to return from (60_exceptions.md R107, R108). What
stands in that place is `fail`, the completion of a command with a status other than OK, and
`raiseBufferFull` (Flags.lean), the record of a push that found its FIFO full.
-/

namespace Sys2Proof.Machine

open Sys2Proof.Config

/-! ## The response register (10_state.md R30) -/

/-- The response word `{STATUS, VALUE}` (30_encoding.md R49). -/
def responseWord (st : Status) (v : Value) : Word := statusCode st ++ v

/-- `respond(status, value)` (30_encoding.md R50). -/
def respond (st : Status) (v : Value) (s : State) : State :=
  { s with rspValid := true, rsp := responseWord st v }

/-- A command that completes with a status other than OK "changes no state except the response
register", with VALUE 0 (43_consumer_commands.md, 60_exceptions.md R99, R107). -/
def fail (st : Status) (s : State) : State := respond st 0 s

/-- What the command port does first in every cycle: with no command accepted, `rspValid` takes 0 and
`rsp` keeps its value (10_state.md R30). A command of the cycle then sets both. -/
def portIdle (s : State) : State := { s with rspValid := false }

/-! ## The FIFO primitives -/

/-- The next slot number, modulo the capacity 12 (40_event_fifo.md R61, R62). -/
def nextSlot (k : Cell) : Cell := if k.val = 11 then 0 else k + 1

/-- A FIFO with `v` appended at its tail. -/
def pushEntry (f : Fifo) (v : Byte) : Fifo :=
  { f with mem := writeCell f.mem f.tail v, tail := nextSlot f.tail, count := f.count + 1 }

/-- A FIFO without its oldest entry; the slot keeps its value (40_event_fifo.md R62). -/
def dropEntry (f : Fifo) : Fifo := { f with head := nextSlot f.head, count := f.count - 1 }

/-- FifoWrite(F, v) (40_event_fifo.md R61). -/
def fifoWrite (F : Channel) (v : Cell) (s : State) : State :=
  if (s.fifo F).count = 12 then raiseBufferFull F s
  else s.setFifo F (pushEntry (s.fifo F) (BitVec.ofNat 8 v.val))

/-- FifoRead(F), followed by the response that READ_PRESS and READ_RELEASE give with it
(40_event_fifo.md R62, 43_consumer_commands.md R93, R94). -/
def fifoReadRespond (F : Channel) (s : State) : State :=
  if (s.fifo F).count = 0 then fail .empty s
  else
    respond .ok (zext 12 (readCell (s.fifo F).mem (s.fifo F).head))
      (s.setFifo F (dropEntry (s.fifo F)))

/-! ## Reset of a running block (70_reset_and_hazards.md R114) -/

/-- Every state element takes its reset value. The build's parameters and the inputs still to come
are no state elements of the block: they stay (log entry 9). -/
def applyReset (s : State) : State := State.resetOf s.params s.inputs

/-! ## The arrays by name (20_memory.md R34) -/

/-- The six address spaces of the block. -/
inductive Space where
  | lvl
  | last
  | cnt
  | conf
  | pmem
  | rmem
deriving DecidableEq, Repr

/-- `MemRead(A, i)`, as an unsigned number (00_scope.md R13, 20_memory.md R37). -/
def memRead (A : Space) (i : Cell) (s : State) : Nat :=
  match A with
  | .lvl => readLevel s.lvl i
  | .last => (readCell s.last i).toNat
  | .cnt => readCount s.cnt i
  | .conf => (readCell s.conf i).toNat
  | .pmem => (readCell s.press.mem i).toNat
  | .rmem => (readCell s.release.mem i).toNat

/-- `MemWrite(A, i, v)`: one whole element, at the width R34 gives it (R13, R37). Where `v` does not fit,
R13 and R37 are silent: the model keeps the low bits of `v`, as many as the element has: LEVEL_W, 1, CNT_W,
1 or 8 (DESIGN CHOICE, log entry 17). No operation writes such a value. -/
def memWrite (A : Space) (i : Cell) (v : Nat) (s : State) : State :=
  match A with
  | .lvl => { s with lvl := writeLevel s.lvl i v }
  | .last => { s with last := writeCell s.last i (v.testBit 0) }
  | .cnt => { s with cnt := writeCount s.cnt i v }
  | .conf => { s with conf := writeCell s.conf i (v.testBit 0) }
  | .pmem => { s with press := { s.press with mem := writeCell s.press.mem i (BitVec.ofNat 8 v) } }
  | .rmem =>
    { s with release := { s.release with mem := writeCell s.release.mem i (BitVec.ofNat 8 v) } }

end Sys2Proof.Machine
end

