-- ==== Sys2Proof/Machine/Commands.lean ====
section
/-!
DEFINITION. Machine/Commands.lean: the meaning of each of the eight consumer commands
(43_consumer_commands.md). Each starts after a successful decode; a word that spells no command is
Machine/Cycle.lean's.
-/

namespace Sys2Proof.Machine

open Host (Outcome)

/-- NOP: `respond(OK, 0)` (R89). -/
def execNop (s : State) : Outcome State Fault Refusal := .next (respond .ok 0 s)

/-- SET_LEVEL idx, level (R90): BAD_INDEX takes precedence over BAD_VALUE (60_exceptions.md R105). -/
def execSetLevel (idx level : Nat) (s : State) : Outcome State Fault Refusal :=
  match cellOfIdx idx with
  | none => .next (fail .badIndex s)
  | some i =>
    if s.levelMax < level then .next (fail .badValue s)
    else .next (respond .ok 0 { s with lvl := writeLevel s.lvl i level })

/-- GET_LEVEL idx (R91). -/
def execGetLevel (idx : Nat) (s : State) : Outcome State Fault Refusal :=
  match cellOfIdx idx with
  | none => .next (fail .badIndex s)
  | some i => .next (respond .ok (zext 12 (levelCell s.lvl i)) s)

/-- GET_SWITCH idx: the confirmed state, 0 pressed and 1 released (R92). -/
def execGetSwitch (idx : Nat) (s : State) : Outcome State Fault Refusal :=
  match cellOfIdx idx with
  | none => .next (fail .badIndex s)
  | some i => .next (respond .ok (zext 12 (BitVec.ofBool (readCell s.conf i))) s)

/-- READ_PRESS (R93). -/
def execReadPress (s : State) : Outcome State Fault Refusal := .next (fifoReadRespond .press s)

/-- READ_RELEASE (R94). -/
def execReadRelease (s : State) : Outcome State Fault Refusal := .next (fifoReadRespond .release s)

/-- GET_STATUS (R95). -/
def execGetStatus (s : State) : Outcome State Fault Refusal := .next (respond .ok (statusWord s) s)

/-- CLEAR_ERR mask: bit 0 selects `errFull[PRESS]`, bit 1 `errFull[RELEASE]` (R96). -/
def execClearErr (mask : BitVec 2) (s : State) : Outcome State Fault Refusal :=
  .next (respond .ok 0 (clearFlag (mask.getLsbD 1) .release (clearFlag (mask.getLsbD 0) .press s)))

end Sys2Proof.Machine
end

