-- ==== Sys2Proof/Machine/Led.lean ====
section
/-!
DEFINITION. Machine/Led.lean: the LED multiplexer (42_led_multiplexer.md).
-/

namespace Sys2Proof.Machine

open Host (Outcome)

/-- Active(sf, L) = `sf ≤ L`, an unsigned comparison (R82). -/
def active (subFrame level : Nat) : Bool := decide (subFrame ≤ level)

/-- Whether the LED in row `r` of the column the tick drives is active (R84). -/
def rowActive (s : State) (r : Fin 3) : Bool :=
  active s.subFrame (readLevel s.lvl (cellAt r s.ledColIx))

/-- The three row outputs of a tick, bit `r` for row `r` (R84). -/
def rowPattern (s : State) : BitVec 3 :=
  BitVec.ofBool (rowActive s 2) ++ BitVec.ofBool (rowActive s 1) ++ BitVec.ofBool (rowActive s 0)

/-- The column cursor advances 1→2→3→4→1 (R85), biased: 0→1→2→3→0. -/
def nextCol (c : Fin 4) : Fin 4 := if c.val = 3 then 0 else c + 1

/-- The sub-frame cursor advances 1→…→8→1 (R85), biased: 0→…→7→0. -/
def nextSubFrame (f : Fin 8) : Fin 8 := if f.val = 7 then 0 else f + 1

/-- LED_TICK's transition (R81): it uses the cursors it finds and then advances them; the sub-frame
steps only where the column wraps (R85). -/
def ledTick (s : State) : State :=
  { s with
    ledRowOn := rowPattern s
    ledColEn := onehot 4 s.ledColIx.val
    ledColIx := nextCol s.ledColIx
    subFrameIx := if s.ledCol = 4 then nextSubFrame s.subFrameIx else s.subFrameIx }

/-- LED_TICK (R81). It cannot fail. -/
def execLedTick (s : State) : Outcome State Fault Refusal := .next (ledTick s)

end Sys2Proof.Machine
end

