-- ==== Sys2Proof/Machine/Switch.lean ====
section
/-!
DEFINITION. Machine/Switch.lean: the switch scanner and debouncer (41_switch_scanner.md).
-/

namespace Sys2Proof.Machine

open Host (Outcome)

/-- Step 2 of Debounce: a raw change zeroes the counter and is the new last-read value (R71). -/
def noteChange (i : Cell) (v : Bool) (s : State) : State :=
  { s with cnt := writeCount s.cnt i 0, last := writeCell s.last i v }

/-- Step 3 of Debounce: the counter of a stable reading (R71). -/
def countStable (i : Cell) (s : State) : State :=
  { s with cnt := writeCount s.cnt i (readCount s.cnt i + 1) }

/-- The FIFO that takes the event of a transition to `v`: 0 is pressed, 1 is released (R72, R73). -/
def eventChannel (v : Bool) : Channel := if v then .release else .press

/-- Step 4 of Debounce: the confirmed state is updated before the push, and stays updated where the
push finds its FIFO full (R72, R73, R76). -/
def acceptTransition (i : Cell) (v : Bool) (s : State) : State :=
  fifoWrite (eventChannel v) i { s with conf := writeCell s.conf i v }

/-- Debounce(i, v), the per-cell step (R71). -/
def debounce (i : Cell) (v : Bool) (s : State) : State :=
  if v ≠ readCell s.last i then noteChange i v s
  else if readCount s.cnt i < s.target then countStable i s
  else if readCell s.conf i ≠ v then acceptTransition i v s
  else s

/-- The four columns of row `r` in ascending order (R74). -/
def scanRow (r : Fin 3) (cols : Nibble) (s : State) : State :=
  [0, 1, 2, 3].foldl (fun t c => debounce (cellAt r c) (cols.getLsbD c.val) t) s

/-- The row cursor advances 1→2→3→1 (R75), biased: 0→1→2→0. -/
def nextRow (r : Fin 3) : Fin 3 := if r.val = 2 then 0 else r + 1

/-- SW_TICK's transition (R70): scan the driven row, then advance the row cursor. -/
def swTick (cols : Nibble) (s : State) : State :=
  { scanRow s.swRowIx cols s with swRowIx := nextRow s.swRowIx }

/-- SW_TICK cols (R70). It always completes (R76). -/
def execSwTick (cols : Nibble) (s : State) : Outcome State Fault Refusal := .next (swTick cols s)

end Sys2Proof.Machine
end

