-- ==== Sys2Proof/Machine/Dispatch.lean ====
section
/-!
DEFINITION. Machine/Dispatch.lean: one arm per operation.
-/

namespace Sys2Proof.Machine

def exec (i : Instr) (s : State) : Host.Outcome State Fault Refusal :=
  match i with
  | .nop => Sys2Proof.Machine.execNop s
  | .setLevel idx level => Sys2Proof.Machine.execSetLevel idx level s
  | .getLevel idx => Sys2Proof.Machine.execGetLevel idx s
  | .getSwitch idx => Sys2Proof.Machine.execGetSwitch idx s
  | .readPress => Sys2Proof.Machine.execReadPress s
  | .readRelease => Sys2Proof.Machine.execReadRelease s
  | .getStatus => Sys2Proof.Machine.execGetStatus s
  | .clearErr mask => Sys2Proof.Machine.execClearErr mask s
  | .ledTick => Sys2Proof.Machine.execLedTick s
  | .swTick cols => Sys2Proof.Machine.execSwTick cols s

end Sys2Proof.Machine
end

