-- ==== Sys2Proof/Machine/Cycle.lean ====
section
/-!
DEFINITION. Machine/Cycle.lean: one clock cycle (20_memory.md R40): which operations the input ports
present, in which order they run, and where the ports' values come from.
-/

namespace Sys2Proof.Machine

open Host (Outcome)

/-- Run `f` on the state an outcome holds; a stop stays a stop. -/
def andThen (o : Outcome State Fault Refusal) (f : State → Outcome State Fault Refusal) :
    Outcome State Fault Refusal :=
  match o with
  | .next s => f s
  | .fault r => .fault r
  | .refused r => .refused r

/-- One accepted operation. A word that spells no command completes with status ILLEGAL and has no
other effect (43_consumer_commands.md R97, 60_exceptions.md R102). -/
def runOperation (op : Except DecodeError Instr) (s : State) : Outcome State Fault Refusal :=
  match op with
  | .ok i => exec i s
  | .error _ => .next (fail .illegal s)

/-- The operations of one cycle as consecutive atomic transitions (R40). -/
def runOperations (ops : List (Except DecodeError Instr)) (s : State) :
    Outcome State Fault Refusal :=
  match ops with
  | [] => .next s
  | op :: rest => andThen (runOperation op s) (runOperations rest)

/-- Execute(w), the command port on a word (43_consumer_commands.md R97). -/
def executeWord (w : Word) (s : State) : Outcome State Fault Refusal := runOperation (decode w) s

/-- One clock cycle with the input ports at `p`: reset alone, or the accepted operations in order
(R40, 70_reset_and_hazards.md R114). -/
def runCycle (p : PinsIn) (s : State) : Outcome State Fault Refusal :=
  if p.rst then .next (applyReset s) else runOperations (operations p) (portIdle s)

/-- The input ports in this cycle; with no input waiting the cycle is idle (log entry 1). -/
def currentPins (s : State) : PinsIn := s.inputs.headD PinsIn.idle

/-- The state whose next cycle is the one after this. -/
def popInput (s : State) : State := { s with inputs := s.inputs.tail }

/-- Put `p` on the input ports for the next cycle, in the place of what waited there. -/
def presentPins (p : PinsIn) (s : State) : State := { s with inputs := p :: s.inputs.tail }

end Sys2Proof.Machine
end

