-- ==== Sys2Proof/Machine/Step.lean ====
section
/-!
DEFINITION. Machine/Step.lean: one step is one cycle of `clk` (30_encoding.md R47).
-/

namespace Sys2Proof.Machine

/-- One clock cycle: the ports' values of this cycle are taken off the inputs, and the cycle runs. -/
def step (s : State) : Host.Outcome State Fault Refusal := runCycle (currentPins s) (popInput s)

/-- The block fetches nothing (10_state.md R32): a command reaches it on the command port. The word
of a table row is put on that port for the next cycle, with no strobe and no reset beside it
(log entry 7). -/
def State.withFetchWord (s : State) (nbits w : Nat) : State :=
  presentPins (presentTableWord nbits w) s

/-- Any operation, a strobe as well as a command, put alone on the ports for the next cycle. -/
def State.withOperation (s : State) (i : Instr) : State := presentPins (encode i) s

end Sys2Proof.Machine
end

