-- ==== Sys2Proof/Machine/Assembler.lean ====
section
/-!
DEFINITION. Machine/Assembler.lean: the written form of command streams (30_encoding.md R59) and the
pseudo-instructions (R60). A tool's side of the ports: no behaviour of the block depends on it. One line is
one clock cycle; the result of a line is what the input ports carry in that cycle.
-/

namespace Sys2Proof.Machine

open Sys2Proof.Config

/-- One event of a line, before its operands are checked against their fields. -/
inductive AsmEvent where
  /-- A command of R51. -/
  | command (i : Instr)
  /-- `CLEAR_ERR mask`, the mask still a number. -/
  | clearErr (mask : Nat)
  /-- A pseudo-instruction of R60. -/
  | pseudo (p : Pseudo)
  /-- `.word 0xHHHH`. -/
  | rawWord (w : Nat)
  /-- `@LED_TICK`. -/
  | ledTick
  /-- `@SW_TICK cols`. -/
  | swTick (cols : Nat)
  /-- `@RESET`. -/
  | reset
deriving DecidableEq, Repr

/-- The expansions of the pseudo-instructions (R60). -/
def expandPseudo (p : Params) : Pseudo → Instr
  | .ledOff idx => .setLevel idx 0
  | .ledFull idx => .setLevel idx p.levelMax
  | .clearPressErr => .clearErr 1
  | .clearReleaseErr => .clearErr 2
  | .clearAllErr => .clearErr 3

/-- The operands an assembler accepts: each fits its field, and a level is at most LEVEL_MAX
(95_test_vectors.md under 2.3: "the assembler refuses level 8 at `LEVEL_W` = 3"; log entry 12). -/
def asmAccepts (p : Params) (i : Instr) : Bool :=
  i.wellFormed &&
    match i with
    | .setLevel _ level => decide (level ≤ p.levelMax)
    | .nop | .getLevel _ | .getSwitch _ | .readPress | .readRelease | .getStatus => true
    | .clearErr _ | .ledTick | .swTick _ => true

/-- The word of a command the assembler accepts. -/
def assembleCommand (p : Params) (i : Instr) : Option Word :=
  if asmAccepts p i then encodeWord i else none

/-- Put a command word on a cycle's ports; the port takes one command a cycle (R47). -/
def addCommand (pins : PinsIn) (w : Word) : Option PinsIn :=
  if pins.cmdValid then none else some { pins with cmdValid := true, cmd := w }

/-- Put one event on a cycle's ports. R59 does not say what a line means that gives the same port event twice,
such as `@RESET | @RESET` or two `@LED_TICK`: a cycle has one of each, and the model refuses the whole line
(DESIGN CHOICE, log entry 12). A `@RESET` may stand beside other events. -/
def addEvent (p : Params) (pins : PinsIn) : AsmEvent → Option PinsIn
  | .command i => (assembleCommand p i).bind (addCommand pins)
  | .clearErr mask =>
    if mask < 4 then (assembleCommand p (.clearErr (BitVec.ofNat 2 mask))).bind (addCommand pins)
    else none
  | .pseudo q => (assembleCommand p (expandPseudo p q)).bind (addCommand pins)
  | .rawWord w => if w < 2 ^ 16 then addCommand pins (BitVec.ofNat 16 w) else none
  | .ledTick => if pins.ledTick then none else some { pins with ledTick := true }
  | .swTick cols =>
    if pins.swTick then none
    else if cols < 16 then some { pins with swTick := true, swColIn := BitVec.ofNat 4 cols }
    else none
  | .reset => if pins.rst then none else some { pins with rst := true }

/-- The ports of one line: its events joined, whatever their order on the line (R59). -/
def assembleEvents (p : Params) (events : List AsmEvent) : Option PinsIn :=
  events.foldlM (addEvent p) PinsIn.idle

/-! ## Text -/

/-- Blanks are the space and the tab; R59 does not name them (DESIGN CHOICE, log entry 12). -/
def isBlank (c : Char) : Bool := c == ' ' || c == '\t'

/-- Text without blanks at either end: blanks around a token are passed over (DESIGN CHOICE, log entry 12). -/
def trimBlanks (cs : List Char) : List Char :=
  ((cs.dropWhile isBlank).reverse.dropWhile isBlank).reverse

/-- The pieces of a text between separators. -/
def splitAtChar (sep : Char) : List Char → List (List Char)
  | [] => [[]]
  | c :: cs =>
    if c == sep then [] :: splitAtChar sep cs
    else
      match splitAtChar sep cs with
      | [] => [[c]]
      | piece :: rest => (c :: piece) :: rest

/-- The value of a digit below `base`. R59 does not name the letters of a hexadecimal digit: the model takes
`a` to `f` in both cases (DESIGN CHOICE, log entry 12). -/
def digitValue (base : Nat) (c : Char) : Option Nat :=
  let v :=
    if '0' ≤ c ∧ c ≤ '9' then c.toNat - '0'.toNat
    else if 'a' ≤ c ∧ c ≤ 'f' then c.toNat - 'a'.toNat + 10
    else if 'A' ≤ c ∧ c ≤ 'F' then c.toNat - 'A'.toNat + 10
    else base
  if v < base then some v else none

/-- The digits of a number of base `base`, at least one. R59 says nothing of leading zeros: the model takes
any number of them in every base, so `007` and `0x0B` are 7 and 11 (DESIGN CHOICE, log entry 12). -/
def readDigits (base : Nat) (cs : List Char) : Option Nat :=
  if cs.isEmpty then none
  else cs.foldlM (fun acc c => (digitValue base c).map (base * acc + ·)) 0

/-- A `0b` number (R59), bit 0 last. R59 does not say how many digits one has: the model takes one or more,
leading zeros or none, and the value alone must fit its field, so `@SW_TICK 0b1` reads as column 0 at 1 and
the others at 0 (DESIGN CHOICE, log entry 12). -/
def readBinary : List Char → Option Nat
  | '0' :: 'b' :: ds => readDigits 2 ds
  | _ => none

/-- A decimal or `0x` number (R59). The `x` is lower case, as R59 writes it (DESIGN CHOICE, log entry 12). -/
def readDecOrHex : List Char → Option Nat
  | '0' :: 'x' :: ds => readDigits 16 ds
  | ds => readDigits 10 ds

/-- A decimal, `0x` or `0b` number (R59). -/
def readNumber (cs : List Char) : Option Nat := (readBinary cs).orElse fun _ => readDecOrHex cs

/-- An `idx` operand: a decimal or `0x` number, or `r<R>c<C>` meaning `R*4 + C` (R59). -/
def readIdx : List Char → Option Nat
  | ['r', r, 'c', c] => do
    let row ← digitValue 3 r
    let col ← digitValue 4 c
    return row * 4 + col
  | cs => readDecOrHex cs

/-- The events that take no operand, by name (R59, R60). -/
def bareEvents : List (String × AsmEvent) :=
  [("NOP", .command .nop), ("READ_PRESS", .command .readPress),
    ("READ_RELEASE", .command .readRelease), ("GET_STATUS", .command .getStatus),
    ("CLEAR_PRESS_ERR", .pseudo .clearPressErr), ("CLEAR_RELEASE_ERR", .pseudo .clearReleaseErr),
    ("CLEAR_ALL_ERR", .pseudo .clearAllErr), ("@LED_TICK", .ledTick), ("@RESET", .reset)]

/-- The events that take one operand, by name: how the operand is read, and the event. -/
def unaryEvents : List (String × (List Char → Option Nat) × (Nat → AsmEvent)) :=
  [("GET_LEVEL", readIdx, fun n => .command (.getLevel n)),
    ("GET_SWITCH", readIdx, fun n => .command (.getSwitch n)),
    ("LED_OFF", readIdx, fun n => .pseudo (.ledOff n)),
    ("LED_FULL", readIdx, fun n => .pseudo (.ledFull n)),
    ("CLEAR_ERR", readNumber, .clearErr), (".word", readDecOrHex, .rawWord),
    ("@SW_TICK", readBinary, .swTick)]

/-- The entry of a table under a name. -/
def lookupName {α : Type} (table : List (String × α)) (name : List Char) : Option α :=
  (table.find? fun entry => entry.1.toList == name).map (·.2)

/-- One event: a mnemonic, then operands separated by commas (R59). Mnemonics are taken in the case R59 and R60
write them in, blanks stand between a mnemonic and its operands, and an event with no text is refused
(DESIGN CHOICE, log entry 12). -/
def parseEvent (text : List Char) : Option AsmEvent :=
  let cs := trimBlanks text
  let name := cs.takeWhile fun c => !isBlank c
  let rest := trimBlanks (cs.dropWhile fun c => !isBlank c)
  let operands := if rest.isEmpty then [] else (splitAtChar ',' rest).map trimBlanks
  match operands with
  | [] => lookupName bareEvents name
  | [a] => (lookupName unaryEvents name).bind fun (read, event) => (read a).map event
  | [a, b] =>
    if name == "SET_LEVEL".toList then do
      let idx ← readIdx a
      let level ← readNumber b
      return .command (.setLevel idx level)
    else none
  | _ => none

/-- One line: the events of one cycle, joined with `|` (R59). -/
def assembleLine (p : Params) (line : List Char) : Option PinsIn :=
  ((splitAtChar '|' line).mapM parseEvent).bind (assembleEvents p)

/-- A text, one line a cycle; lines of blanks are passed over (log entry 12). -/
def assembleText (p : Params) (text : String) : Option (List PinsIn) :=
  ((splitAtChar '\n' text.toList).filter fun line => !(trimBlanks line).isEmpty).mapM (assembleLine p)

/-- A state about to run an assembled text: its lines are what the ports carry next. -/
def State.withText (s : State) (text : String) : Option State :=
  (assembleText s.params text).map fun pins => { s with inputs := pins }

end Sys2Proof.Machine
end

