-- ==== Sys2Proof/Machine/Pins.lean ====
section
/-!
DEFINITION. Machine/Pins.lean: the output ports (30_encoding.md R47), functions of the state alone, and
what they mean on the lines of the two matrices. The pin polarity is an argument (00_scope.md R10,
log entry 4).
-/

namespace Sys2Proof.Machine

open Sys2Proof.Config

/-- The output ports of R47. -/
structure PinsOut where
  ledColOe : BitVec 4
  ledColO : BitVec 4
  ledRowO : BitVec 3
  swRowOe : BitVec 3
  swRowO : BitVec 3
  rspValid : Bool
  rsp : Word
  errPressFull : Bool
  errReleaseFull : Bool
deriving DecidableEq, Repr

/-- Every bit of an `n`-bit port at the level `b`. -/
def allBits (n : Nat) (b : Bool) : BitVec n := if b then BitVec.allOnes n else 0

/-- The level of an LED row line: ROW_ON_LEVEL where the row is on, the opposite elsewhere (R47). -/
def rowLevel (pol : Polarity) (on : Bool) : Bool := if on then pol.rowOnLevel else !pol.rowOnLevel

/-- `led_row_o` (R47). -/
def ledRowPort (pol : Polarity) (s : State) : BitVec 3 :=
  BitVec.ofBool (rowLevel pol (s.ledRowOn.getLsbD 2)) ++
    BitVec.ofBool (rowLevel pol (s.ledRowOn.getLsbD 1)) ++
      BitVec.ofBool (rowLevel pol (s.ledRowOn.getLsbD 0))

/-- `sw_row_oe`: bit `r` is 1 exactly where `r == swRow − 1` (10_state.md R28). -/
def swRowEnable (s : State) : BitVec 3 := onehot 3 (s.swRow - 1)

/-- The output ports (R47). -/
def outputs (pol : Polarity) (s : State) : PinsOut :=
  { ledColOe := s.ledColEn
    ledColO := allBits 4 pol.colActiveLevel
    ledRowO := ledRowPort pol s
    swRowOe := swRowEnable s
    swRowO := 0b000
    rspValid := s.rspValid
    rsp := s.rsp
    errPressFull := s.errFull .press
    errReleaseFull := s.errFull .release }

/-! ## The lines of the matrices -/

/-- What the block does to one line: drive it to a level, or leave it an input. -/
inductive Line where
  | driven (level : Bool)
  | highZ
deriving DecidableEq, Repr

/-- A line with an output enable. -/
def lineOf (enable level : Bool) : Line := if enable then .driven level else .highZ

/-- LED column line `c` (10_state.md R26). -/
def ledColLine (pol : Polarity) (s : State) (c : Fin 4) : Line :=
  lineOf ((outputs pol s).ledColOe.getLsbD c.val) ((outputs pol s).ledColO.getLsbD c.val)

/-- LED row line `r`, an output at all times (10_state.md R27). -/
def ledRowLine (pol : Polarity) (s : State) (r : Fin 3) : Line :=
  .driven ((outputs pol s).ledRowO.getLsbD r.val)

/-- Switch row-select line `r`: driven low or an input (10_state.md R28). -/
def swRowLine (s : State) (r : Fin 3) : Line :=
  lineOf ((swRowEnable s).getLsbD r.val) false

/-- An LED is lit exactly where its column is driven and its row is on (42_led_multiplexer.md R88). -/
def lit (s : State) (r : Fin 3) (c : Fin 4) : Bool :=
  s.ledColEn.getLsbD c.val && s.ledRowOn.getLsbD r.val

end Sys2Proof.Machine
end

