-- ==== Sys2Proof/Safety.lean ====
section
/-!
DEFINITION. Safety.lean: what claims about keypad-core are stated in: the entries of a FIFO, the
invariant of every reachable state, runs of ticks and of FIFO operations, and states that no
operation can tell apart.
-/

namespace Sys2Proof.Machine

open Host (Outcome)

/-! ## FIFO contents (10_state.md R22) -/

/-- The slot of the `k`-th oldest entry, `(head + k) mod 12`. -/
def slotAt (f : Fifo) (k : Nat) : Cell := ⟨(f.head.val + k) % 12, Nat.mod_lt _ (by decide)⟩

/-- The entries a FIFO holds, the oldest first. -/
def Fifo.entries (f : Fifo) : List Byte :=
  (List.range f.count.toNat).map fun k => readCell f.mem (slotAt f k)

/-- The FIFO invariant (10_state.md R22). -/
structure Fifo.Ok (f : Fifo) : Prop where
  /-- The occupied count is at most the capacity. -/
  count_le : f.count.toNat ≤ 12
  /-- `tail == (head + count) mod 12`. -/
  tail_eq : f.tail = slotAt f f.count.toNat
  /-- Every occupied slot holds a cell index. -/
  entries_lt : ∀ k : Fin 12, k.val < f.count.toNat → (readCell f.mem (slotAt f k.val)).toNat < 12

/-! ## The invariant of every reachable state -/

/-- What holds in every reachable state, beyond what the types of State say. -/
structure Invariant (s : State) : Prop where
  /-- Both FIFOs meet 10_state.md R22. -/
  fifo_ok : ∀ F, (s.fifo F).Ok
  /-- Every level is in 0..LEVEL_MAX (R17): what LEVEL_W bits hold. -/
  lvl_le : ∀ i : Cell, readLevel s.lvl i ≤ s.levelMax
  /-- No counter exceeds DEBOUNCE_TARGET (R19). -/
  cnt_le : ∀ i : Cell, readCount s.cnt i ≤ s.target
  /-- `ledColEn` is 0 or one-hot (R15, R26). -/
  col_onehot : s.ledColEn = 0 ∨ ∃ c : Fin 4, s.ledColEn = onehot 4 c.val
  /-- The response register holds a status that exists (60_exceptions.md R99). -/
  status_le : (s.rsp.extractLsb' 12 4).toNat ≤ 4

/-- Every state element at its reset value (70_reset_and_hazards.md R115). The FIFO slots are left
out: theirs is unspecified (10_state.md R33). -/
structure HoldsResetValues (s : State) : Prop where
  lvl : ∀ i : Cell, readLevel s.lvl i = 0
  last : ∀ i : Cell, readCell s.last i = true
  cnt : ∀ i : Cell, readCount s.cnt i = 0
  conf : ∀ i : Cell, readCell s.conf i = true
  fifo : ∀ F, (s.fifo F).head = 0 ∧ (s.fifo F).tail = 0 ∧ (s.fifo F).count = 0
  ledCol : s.ledCol = 1
  subFrame : s.subFrame = 1
  swRow : s.swRow = 1
  ledColEn : s.ledColEn = 0b0000
  ledRowOn : s.ledRowOn = 0b000
  errFull : ∀ F, s.errFull F = false
  rspValid : s.rspValid = false
  rsp : s.rsp = 0x0000

/-! ## Runs -/

/-- `n` LED_TICKs in a row. -/
def ledTicks : Nat → State → Outcome State Fault Refusal
  | 0, s => .next s
  | n + 1, s => andThen (exec .ledTick s) (ledTicks n)

/-- SW_TICKs in a row, one for each reading of the column lines. -/
def swTicks : List Nibble → State → Outcome State Fault Refusal
  | [], s => .next s
  | cols :: rest, s => andThen (exec (.swTick cols) s) (swTicks rest)

/-- In how many of the next `n` LED_TICKs the LED at `(r, c)` is lit by the tick. -/
def litCount (r : Fin 3) (c : Fin 4) : Nat → State → Nat
  | 0, _ => 0
  | n + 1, s =>
    match exec .ledTick s with
    | .next t => (if lit t r c then 1 else 0) + litCount r c n t
    | .fault _ => 0
    | .refused _ => 0

/-- One operation on a FIFO: a write of a cell index, or a read. -/
inductive FifoOp where
  | write (v : Cell)
  | read
deriving DecidableEq, Repr

/-- One FIFO operation on the state. -/
def runFifoOp (F : Channel) (s : State) : FifoOp → State
  | .write v => fifoWrite F v s
  | .read => fifoReadRespond F s

/-- FIFO operations in a row. -/
def runFifoOps (F : Channel) : List FifoOp → State → State
  | [], s => s
  | op :: ops, s => runFifoOps F ops (runFifoOp F s op)

/-- The values of the writes that found room, in write order (40_event_fifo.md R65). -/
def acceptedWrites (F : Channel) : List FifoOp → State → List Byte
  | [], _ => []
  | op :: ops, s =>
    (match op with
      | .write v => if (s.fifo F).count = 12 then [] else [BitVec.ofNat 8 v.val]
      | .read => []) ++ acceptedWrites F ops (runFifoOp F s op)

/-- The values in the responses of the reads that answered OK, in read order (R65). -/
def returnedReads (F : Channel) : List FifoOp → State → List Byte
  | [], _ => []
  | op :: ops, s =>
    (match op with
      | .write _ => []
      | .read =>
        let r := (fifoReadRespond F s).rsp
        if r.extractLsb' 12 4 = 0 then [r.extractLsb' 0 8] else []) ++
      returnedReads F ops (runFifoOp F s op)

/-! ## One SW_TICK, cell by cell -/

/-- Whether a SW_TICK with column levels `cols` confirms a transition to `v` in column `c` of the
scanned row: the reading is `v`, stable, the counter is at the target, and the confirmed state
differs (41_switch_scanner.md R71, step 4). -/
def confirms (s : State) (cols : Nibble) (v : Bool) (c : Fin 4) : Bool :=
  let i := cellAt s.swRowIx c
  cols.getLsbD c.val == v && readCell s.last i == v && decide (s.target ≤ readCount s.cnt i) &&
    readCell s.conf i != v

/-- The cells of the scanned row that confirm a transition to `v`, in ascending order (R74), as the
bytes an event FIFO holds. -/
def confirmedEvents (s : State) (cols : Nibble) (v : Bool) : List Byte :=
  (([0, 1, 2, 3] : List (Fin 4)).filter (confirms s cols v)).map fun c =>
    BitVec.ofNat 8 (cellAt s.swRowIx c).val

/-- In how many SW_TICKs of a run cell `i` confirms a transition to `v`. -/
def confirmCount (i : Cell) (v : Bool) : List Nibble → State → Nat
  | [], _ => 0
  | cols :: rest, s =>
    match exec (.swTick cols) s with
    | .next t =>
      (if s.swRowIx = rowOf i ∧ confirms s cols v (colOf i) then 1 else 0) +
        confirmCount i v rest t
    | .fault _ => 0
    | .refused _ => 0

/-! ## States that differ only in what is never observable (10_state.md R33) -/

/-- Two FIFOs that agree but for slots outside the occupied window. -/
structure Fifo.SameEntries (f g : Fifo) : Prop where
  head : g.head = f.head
  tail : g.tail = f.tail
  count : g.count = f.count
  entries : g.entries = f.entries

/-- Two states that agree but for unoccupied FIFO slots. -/
structure SameButFreeSlots (s u : State) : Prop where
  press : s.press.SameEntries u.press
  release : s.release.SameEntries u.release
  rest : u = { s with press := u.press, release := u.release }

end Sys2Proof.Machine
end

