-- ==== Sys2Proof/Certificates/Slice0/Obligations.lean ====
section
/-!
DEFINITION. Certificates/Slice0/Obligations.lean: what is claimed of keypad-core, stated and not proved.

A statement about one operation ends in `exec … = .next t`: it says where the operation completes and
what the whole next state is. A next state written as `{ s with … }` is also the operation's frame:
every field that is not named keeps its value. Words are written as the four nibbles OP, RSV, IDX, DATA
of 30_encoding.md R48, or as the two fields STATUS, VALUE of R49.
-/

open Sys2Proof Sys2Proof.Machine Sys2Proof.Config

/-! ## Reset, the step and the cycle -/

/-- 70_reset_and_hazards.md R115: the reset value of every state element (the unspecified FIFO slots
left out). -/
def Obligations.ResetStateHoldsResetValues : Prop := HoldsResetValues State.reset

/-- 70_reset_and_hazards.md R114: in a cycle with `rst` = 1 nothing else is accepted, every element takes
its reset value, and a second cycle with `rst` = 1 changes nothing more. That the parameters and the
inputs still to come stay is the model's reading (log entry 9); that they stand in State is its choice (log
entries 1 and 3). -/
def Obligations.ResetCycleAcceptsNothingElse : Prop :=
  ∀ (s : State) (p : PinsIn) (rest : List PinsIn), s.inputs = p :: rest → p.rst = true →
    ∃ t, step s = .next t ∧ HoldsResetValues t ∧ t.params = s.params ∧ t.inputs = rest ∧
      ∀ (q : PinsIn) (more : List PinsIn), rest = q :: more → q.rst = true →
        step t = .next { t with inputs := more }

/-- A cycle that presents one operation alone runs exactly it (43_consumer_commands.md R97, 30_encoding.md
R57): `step` is `exec` of the decoded command, or of the strobe's tick, on the state whose inputs have
moved on and whose `rspValid` is 0 until a command responds (10_state.md R30). The list of inputs is the
model's own (log entry 1). -/
def Obligations.StepRunsThePresentedOperation : Prop :=
  ∀ (s : State) (p : PinsIn) (rest : List PinsIn), s.inputs = p :: rest → p.rst = false →
    (∀ i, p.cmdValid = true → p.swTick = false → p.ledTick = false → decode p.cmd = .ok i →
      step s = exec i { s with inputs := rest, rspValid := false }) ∧
    (p.cmdValid = false → p.swTick = true → p.ledTick = false →
      step s = exec (.swTick p.swColIn) { s with inputs := rest, rspValid := false }) ∧
    (p.cmdValid = false → p.swTick = false → p.ledTick = true →
      step s = exec .ledTick { s with inputs := rest, rspValid := false })

/-- Every well-formed operation, presented on the ports by the encoder, is the operation the next step
runs. The model's own: `withOperation` puts the encoded cycle in the place of what waited (log entry 7), and
the inputs move on to `s.inputs.tail` (log entry 1). `rspValid` is 0 until a command responds
(10_state.md R30). -/
def Obligations.EncodedOperationIsTheOneRun : Prop :=
  ∀ (s : State) (i : Instr), i.wellFormed = true →
    step (s.withOperation i) = exec i { s with inputs := s.inputs.tail, rspValid := false }

/-- 20_memory.md R40, of a step: the command, then SW_TICK, then LED_TICK, each on the state the one before
left; with `rst` = 1 reset only. The first of them starts with `rspValid` = 0 (10_state.md R30); a word that
decodes is its command, and one that spells none responds ILLEGAL (43_consumer_commands.md R97). The list of
inputs is the model's own (log entry 1). -/
def Obligations.CycleRunsCommandThenSwTickThenLedTick : Prop :=
  ∀ (s : State) (p : PinsIn) (rest : List PinsIn), s.inputs = p :: rest →
    let s₀ : State := { s with inputs := rest, rspValid := false }
    step s = runCycle p { s with inputs := rest } ∧
    (p.rst = true → ∃ t, step s = .next t ∧ HoldsResetValues t) ∧
    (p.rst = false → ∃ a b c : State,
      (p.cmdValid = true → executeWord p.cmd s₀ = .next a ∧
        (∀ i, decode p.cmd = .ok i → exec i s₀ = .next a) ∧
        (∀ e, decode p.cmd = .error e → a = { s₀ with rspValid := true, rsp := 0x2000 })) ∧
      (p.cmdValid = false → a = s₀) ∧
      (p.swTick = true → exec (.swTick p.swColIn) a = .next b) ∧ (p.swTick = false → b = a) ∧
      (p.ledTick = true → exec .ledTick b = .next c) ∧ (p.ledTick = false → c = b) ∧
      step s = .next c)

/-- 20_memory.md R40, the consequences it draws for a command beside a tick, for both channels: a READ_PRESS
or READ_RELEASE does not see what the tick of its cycle pushes, and frees a slot of a full FIFO for it; a
CLEAR_ERR beside a failing push leaves the flag set; a SET_LEVEL is seen by the LED_TICK; a GET_STATUS answers
with the state before the ticks. -/
def Obligations.SameCycleConsequences : Prop :=
  ∀ (s : State) (p : PinsIn), p.rst = false → p.cmdValid = true → (∀ F, (s.fifo F).Ok) →
    ∃ t, runCycle p s = .next t ∧
      (∀ F : Channel,
        let events :=
          confirmedEvents s p.swColIn (match F with | .press => false | .release => true)
        (decode p.cmd = .ok (match F with | .press => .readPress | .release => .readRelease) →
          p.swTick = true →
          ((s.fifo F).count = 0 → t.rsp = 0x1000 ∧ (t.fifo F).entries = events) ∧
          ((s.fifo F).count = 12 → events.length ≤ 1 →
            t.rsp = (0x0 : Nibble) ++ (0 : Nibble) ++ readCell (s.fifo F).mem (s.fifo F).head ∧
              t.errFull F = s.errFull F ∧
              (t.fifo F).entries = (s.fifo F).entries.tail ++ events)) ∧
        ∀ mask, decode p.cmd = .ok (.clearErr mask) → p.swTick = true →
          (s.fifo F).count = 12 → events ≠ [] → t.errFull F = true) ∧
      (∀ (i : Cell) (level : Nat), decode p.cmd = .ok (.setLevel i.val level) →
        level ≤ s.levelMax → p.ledTick = true →
        ∀ r : Fin 3, t.ledRowOn.getLsbD r.val = decide (s.subFrame ≤
          if cellAt r s.ledColIx = i then level
          else readLevel s.lvl (cellAt r s.ledColIx))) ∧
      (decode p.cmd = .ok .getStatus →
        t.rsp.extractLsb' 0 4 = s.press.count ∧ t.rsp.extractLsb' 4 4 = s.release.count ∧
          t.rsp.getLsbD 8 = s.errPressFull ∧ t.rsp.getLsbD 9 = s.errReleaseFull)

/-- 70_reset_and_hazards.md R116, 10_state.md R30: in a cycle with no tick and no command nothing changes,
but `rspValid` takes 0. That a step with no input waiting is such a cycle is the model's choice
(log entry 1). -/
def Obligations.IdleCycleOnlyEndsTheResponse : Prop :=
  ∀ s : State,
    (∀ (p : PinsIn) (rest : List PinsIn), s.inputs = p :: rest → p.rst = false →
      p.cmdValid = false → p.swTick = false → p.ledTick = false →
      step s = .next { s with inputs := rest, rspValid := false }) ∧
    (s.inputs = [] → step s = .next { s with rspValid := false })

/-- 10_state.md R30: the response register after every cycle. With a command accepted, `rsp` takes the
word that command produced and `rspValid` takes 1; with none, `rspValid` takes 0 and `rsp` keeps its
value; at reset 0 and 0x0000. -/
def Obligations.ResponseRegisterAfterEveryCycle : Prop :=
  ∀ (p : PinsIn) (s t : State), runCycle p s = .next t →
    (p.rst = true → t.rspValid = false ∧ t.rsp = 0x0000) ∧
    (p.rst = false → p.cmdValid = true →
      t.rspValid = true ∧
        ∃ u, executeWord p.cmd { s with rspValid := false } = .next u ∧ t.rsp = u.rsp) ∧
    (p.rst = false → p.cmdValid = false → t.rspValid = false ∧ t.rsp = s.rsp)

/-! ## Encoding -/

/-- 30_encoding.md R51: each row of the opcode map as a match and a mask, with its operands. A word spells
the command exactly when `(w & mask) == match`; as the eight right sides exclude each other, no two rows
match the same word. -/
def Obligations.DecodeAgreesWithMatchAndMask : Prop :=
  ∀ w : Word,
    let idx := (w.extractLsb' 4 4).toNat
    let data := (w.extractLsb' 0 4).toNat
    (w &&& 0xFFFF = 0x0000 ↔ decode w = .ok .nop) ∧
    (w &&& 0xFF00 = 0x1000 ↔ decode w = .ok (.setLevel idx data)) ∧
    (w &&& 0xFF0F = 0x2000 ↔ decode w = .ok (.getLevel idx)) ∧
    (w &&& 0xFF0F = 0x3000 ↔ decode w = .ok (.getSwitch idx)) ∧
    (w &&& 0xFFFF = 0x4000 ↔ decode w = .ok .readPress) ∧
    (w &&& 0xFFFF = 0x5000 ↔ decode w = .ok .readRelease) ∧
    (w &&& 0xFFFF = 0x6000 ↔ decode w = .ok .getStatus) ∧
    (w &&& 0xFFFC = 0x7000 ↔ decode w = .ok (.clearErr (w.extractLsb' 0 2)))

/-- Every well-formed operation, at every value of its operands, is the one operation the ports carry when
the encoder presents it. -/
def Obligations.DecodeOfEncodeIsTheInstruction : Prop :=
  ∀ i : Instr, i.wellFormed = true → operations (encode i) = [.ok i]

/-- A word that decodes is the one word of its instruction, and its operands fit their fields. -/
def Obligations.EncodeOfDecodeIsTheWord : Prop :=
  ∀ (w : Word) (i : Instr), decode w = .ok i → encodeWord i = some w ∧ i.wellFormed = true

/-- A few words written out from 30_encoding.md R51 to R53. -/
def Obligations.SampleWordsDecode : Prop :=
  decode 0b0000000000000000 = .ok .nop ∧
  decode 0b0001000001100101 = .ok (.setLevel 6 5) ∧
  decode 0b0010000010110000 = .ok (.getLevel 11) ∧
  decode 0b0011000011110000 = .ok (.getSwitch 15) ∧
  decode 0b0100000000000000 = .ok .readPress ∧
  decode 0b0101000000000000 = .ok .readRelease ∧
  decode 0b0110000000000000 = .ok .getStatus ∧
  decode 0b0111000000000010 = .ok (.clearErr 0b10) ∧
  decode 0x7004 = .error .reservedOperand ∧
  decode 0x1100 = .error .reservedRsv ∧
  decode 0xF123 = .error .reservedOpcode

/-- 20_memory.md R35: a byte-wide transport sends the low byte first, and a word that crosses it arrives
as it was sent. -/
def Obligations.TransportSendsLowByteFirst : Prop :=
  ∀ (w : Word) (rest : List Byte),
    transportBytes w = [w.extractLsb' 0 8, w.extractLsb' 8 8] ∧
      transportWord (transportBytes w ++ rest) = some (w, rest)

/-! ## The commands -/

/-- 43_consumer_commands.md R89, NOP. -/
def Obligations.NopOnlyResponds : Prop :=
  decode 0x0000 = .ok .nop ∧
  (∀ idx data : Nibble, idx ≠ 0 ∨ data ≠ 0 →
    ∃ e, decode ((0x0 : Nibble) ++ (0 : Nibble) ++ idx ++ data) = .error e) ∧
  ∀ s : State, exec .nop s = .next { s with rspValid := true, rsp := 0x0000 }

/-- 43_consumer_commands.md R90, SET_LEVEL: the cell takes the level and no other cell changes; BAD_INDEX
takes precedence over BAD_VALUE, and both leave every cell as it was. That the width of the cells stays is no
clause of R90: LEVEL_W is fixed at synthesis (00_scope.md R9) and stands in State by the model's choice (log
entry 3). -/
def Obligations.SetLevelWritesOneCell : Prop :=
  (∀ idx level : Nibble, decode ((0x1 : Nibble) ++ (0 : Nibble) ++ idx ++ level) =
    .ok (.setLevel idx.toNat level.toNat)) ∧
  (∀ (idx level : Nat) (s : State), 12 ≤ idx →
    exec (.setLevel idx level) s = .next { s with rspValid := true, rsp := 0x3000 }) ∧
  (∀ (i : Cell) (level : Nat) (s : State), s.levelMax < level →
    exec (.setLevel i.val level) s = .next { s with rspValid := true, rsp := 0x4000 }) ∧
  ∀ (i : Cell) (level : Nat) (s : State), level ≤ s.levelMax →
    ∃ t, exec (.setLevel i.val level) s = .next t ∧
      t = { s with lvl := t.lvl, rspValid := true, rsp := 0x0000 } ∧
      t.lvl.width = s.lvl.width ∧
      ∀ j : Cell,
        readLevel t.lvl j = if j = i then level else readLevel s.lvl j

/-- 43_consumer_commands.md R91, GET_LEVEL. -/
def Obligations.GetLevelRespondsWithTheLevel : Prop :=
  (∀ idx : Nibble, decode ((0x2 : Nibble) ++ (0 : Nibble) ++ idx ++ (0 : Nibble)) =
    .ok (.getLevel idx.toNat)) ∧
  (∀ idx data : Nibble, data ≠ 0 →
    ∃ e, decode ((0x2 : Nibble) ++ (0 : Nibble) ++ idx ++ data) = .error e) ∧
  (∀ (idx : Nat) (s : State), 12 ≤ idx →
    exec (.getLevel idx) s = .next { s with rspValid := true, rsp := 0x3000 }) ∧
  ∀ (i : Cell) (s : State), exec (.getLevel i.val) s =
    .next { s with
      rspValid := true
      rsp := (0x0 : Nibble) ++ BitVec.ofNat 12 (readLevel s.lvl i) }

/-- 43_consumer_commands.md R92, GET_SWITCH: the confirmed state, 0 pressed and 1 released, never the raw
level. -/
def Obligations.GetSwitchRespondsWithTheConfirmedState : Prop :=
  (∀ idx : Nibble, decode ((0x3 : Nibble) ++ (0 : Nibble) ++ idx ++ (0 : Nibble)) =
    .ok (.getSwitch idx.toNat)) ∧
  (∀ idx data : Nibble, data ≠ 0 →
    ∃ e, decode ((0x3 : Nibble) ++ (0 : Nibble) ++ idx ++ data) = .error e) ∧
  (∀ (idx : Nat) (s : State), 12 ≤ idx →
    exec (.getSwitch idx) s = .next { s with rspValid := true, rsp := 0x3000 }) ∧
  ∀ (i : Cell) (s : State), exec (.getSwitch i.val) s =
    .next { s with
      rspValid := true
      rsp := if readCell s.conf i then 0x0001 else 0x0000 }

/-- 43_consumer_commands.md R93, READ_PRESS: EMPTY with no change, or the oldest press event, removed; no
slot, no flag and nothing of RELEASE changes. -/
def Obligations.ReadPressRemovesTheOldestPress : Prop :=
  decode 0x4000 = .ok .readPress ∧
  (∀ s : State, s.press.count = 0 →
    exec .readPress s = .next { s with rspValid := true, rsp := 0x1000 }) ∧
  ∀ s : State, s.press.count ≠ 0 →
    ∃ h : Cell, h.val = (s.press.head.val + 1) % 12 ∧
      exec .readPress s =
        .next { s with
          press := { s.press with head := h, count := s.press.count - 1 }
          rspValid := true
          rsp := (0x0 : Nibble) ++ (0 : Nibble) ++ readCell s.press.mem s.press.head }

/-- 43_consumer_commands.md R94, READ_RELEASE. -/
def Obligations.ReadReleaseRemovesTheOldestRelease : Prop :=
  decode 0x5000 = .ok .readRelease ∧
  (∀ s : State, s.release.count = 0 →
    exec .readRelease s = .next { s with rspValid := true, rsp := 0x1000 }) ∧
  ∀ s : State, s.release.count ≠ 0 →
    ∃ h : Cell, h.val = (s.release.head.val + 1) % 12 ∧
      exec .readRelease s =
        .next { s with
          release := { s.release with head := h, count := s.release.count - 1 }
          rspValid := true
          rsp := (0x0 : Nibble) ++ (0 : Nibble) ++ readCell s.release.mem s.release.head }

/-- 43_consumer_commands.md R95, GET_STATUS, with the fields of 10_state.md R31. -/
def Obligations.GetStatusRespondsWithCountsAndFlags : Prop :=
  decode 0x6000 = .ok .getStatus ∧
  (∀ idx data : Nibble, idx ≠ 0 ∨ data ≠ 0 →
    ∃ e, decode ((0x6 : Nibble) ++ (0 : Nibble) ++ idx ++ data) = .error e) ∧
  ∀ s : State, ∃ t, exec .getStatus s = .next t ∧
    t = { s with rspValid := true, rsp := t.rsp } ∧
    t.rsp.extractLsb' 0 4 = s.press.count ∧
    t.rsp.extractLsb' 4 4 = s.release.count ∧
    t.rsp.getLsbD 8 = s.errPressFull ∧
    t.rsp.getLsbD 9 = s.errReleaseFull ∧
    t.rsp.extractLsb' 10 2 = 0 ∧
    t.rsp.extractLsb' 12 4 = 0

/-- 43_consumer_commands.md R96, CLEAR_ERR: each selected flag takes 0 and the other keeps its value; no
FIFO changes. -/
def Obligations.ClearErrClearsTheSelectedFlags : Prop :=
  (∀ mask : BitVec 2,
    decode ((0x7 : Nibble) ++ (0 : Nibble) ++ (0 : Nibble) ++ (0 : BitVec 2) ++ mask) =
      .ok (.clearErr mask)) ∧
  (∀ idx data : Nibble, idx ≠ 0 ∨ data.extractLsb' 2 2 ≠ 0 →
    ∃ e, decode ((0x7 : Nibble) ++ (0 : Nibble) ++ idx ++ data) = .error e) ∧
  ∀ (mask : BitVec 2) (s : State), exec (.clearErr mask) s =
    .next { s with
      errPressFull := if mask.getLsbD 0 then false else s.errPressFull
      errReleaseFull := if mask.getLsbD 1 then false else s.errReleaseFull
      rspValid := true
      rsp := 0x0000 }

/-- 60_exceptions.md R101 to R104 (and R105's order): the status of every command word, from the bits of
the word and the state alone, and that a status other than OK comes with VALUE 0 and changes nothing but
the response register. With LEVEL_W = 4 BAD_VALUE is never raised. -/
def Obligations.StatusOfEveryWord : Prop :=
  ∀ (w : Word) (s : State),
    let op := (w.extractLsb' 12 4).toNat
    let rsv := (w.extractLsb' 8 4).toNat
    let idx := (w.extractLsb' 4 4).toNat
    let data := (w.extractLsb' 0 4).toNat
    let illegal := 8 ≤ op ∨ rsv ≠ 0 ∨
      ((op = 0 ∨ op = 4 ∨ op = 5 ∨ op = 6) ∧ (idx ≠ 0 ∨ data ≠ 0)) ∨
      ((op = 2 ∨ op = 3) ∧ data ≠ 0) ∨ (op = 7 ∧ (idx ≠ 0 ∨ 4 ≤ data))
    let badIndex := (op = 1 ∨ op = 2 ∨ op = 3) ∧ 12 ≤ idx
    let badValue := op = 1 ∧ s.levelMax < data
    let empty := (op = 4 ∧ s.press.count = 0) ∨ (op = 5 ∧ s.release.count = 0)
    let status : Nibble :=
      if illegal then 2 else if badIndex then 3 else if badValue then 4 else if empty then 1 else 0
    ∃ t, executeWord w s = .next t ∧ t.rspValid = true ∧ t.rsp.extractLsb' 12 4 = status ∧
      (status ≠ 0 → t = { s with rspValid := true, rsp := status ++ (0 : Value) }) ∧
      (s.params.levelW = .four → status ≠ 4)

/-- 20_memory.md R38: the reads that are free of side effects and idempotent, and the two that are
destructive. -/
def Obligations.WhichReadsHaveSideEffects : Prop :=
  (∀ (i : Instr) (s : State), ((∃ idx, i = .getLevel idx ∨ i = .getSwitch idx) ∨ i = .getStatus) →
    ∃ t, exec i s = .next t ∧ t = { s with rspValid := true, rsp := t.rsp } ∧ exec i t = .next t) ∧
  ∀ (F : Channel) (s : State) (i : Instr), (s.fifo F).Ok →
    i = (match F with | .press => .readPress | .release => .readRelease) →
    ((s.fifo F).entries = [] → exec i s = .next { s with rspValid := true, rsp := 0x1000 }) ∧
    ∀ (v : Byte) (rest : List Byte), (s.fifo F).entries = v :: rest →
      ∃ t, exec i s = .next t ∧ t.rsp = (0x0 : Nibble) ++ (0 : Nibble) ++ v ∧
        (t.fifo F).entries = rest ∧
        ∀ (v' : Byte) (rest' : List Byte), rest = v' :: rest' →
          ∃ u, exec i t = .next u ∧ u.rsp = (0x0 : Nibble) ++ (0 : Nibble) ++ v' ∧
            (u.fifo F).entries = rest'

/-! ## The LED multiplexer -/

/-- 42_led_multiplexer.md R81, R84, R85: the whole effect of LED_TICK, from the cursors it finds. -/
def Obligations.LedTickDrivesTheCursorsColumn : Prop :=
  ∀ s : State, ∃ t, exec .ledTick s = .next t ∧
    t = { s with
      ledRowOn := t.ledRowOn
      ledColEn := t.ledColEn
      ledColIx := t.ledColIx
      subFrameIx := t.subFrameIx } ∧
    (∀ r : Fin 3, t.ledRowOn.getLsbD r.val =
      decide (s.subFrame ≤ readLevel s.lvl (cellAt r s.ledColIx))) ∧
    (∀ c : Fin 4, t.ledColEn.getLsbD c.val = decide (c.val + 1 = s.ledCol)) ∧
    t.ledCol = (if s.ledCol = 4 then 1 else s.ledCol + 1) ∧
    t.subFrame =
      if s.ledCol = 4 then (if s.subFrame = 8 then 1 else s.subFrame + 1) else s.subFrame

/-- 42_led_multiplexer.md R83, R84, with the lines of 30_encoding.md R47 and for both polarities of
00_scope.md R10: after LED_TICK `ledColEn` is one-hot, so one column line is driven to COL_ACTIVE_LEVEL and
three are inputs, and every row line is driven to ROW_ON_LEVEL or to the opposite level. -/
def Obligations.LedTickLines : Prop :=
  ∀ (pol : Polarity) (s : State), ∃ t, exec .ledTick s = .next t ∧
    t.ledColEn = onehot 4 (s.ledCol - 1) ∧
    (∀ r : Fin 3, t.ledRowOn.getLsbD r.val =
      decide (s.subFrame ≤ readLevel s.lvl (cellAt r s.ledColIx))) ∧
    (∀ c : Fin 4, ledColLine pol t c =
      if c.val + 1 = s.ledCol then .driven pol.colActiveLevel else .highZ) ∧
    ∀ r : Fin 3, ledRowLine pol t r = .driven
      (if s.subFrame ≤ readLevel s.lvl (cellAt r s.ledColIx) then pol.rowOnLevel
        else !pol.rowOnLevel)

/-- 42_led_multiplexer.md R86, first part: with any levels, of either LEVEL_W, the tick that follows `n` ticks
from reset drives column `n mod 4` in sub-frame `((n div 4) mod 8) + 1`. The run starts at State.reset, with
the default DEBOUNCE_TARGET (log entry 3); `EveryStepKeepsTheRefreshPhase` says it of every build and step. -/
def Obligations.LedTickAfterNTicksFromReset : Prop :=
  ∀ (levels : LevelGrid) (n : Nat), ∃ s t,
    ledTicks n { State.reset with lvl := levels } = .next s ∧ exec .ledTick s = .next t ∧
      s.ledCol = n % 4 + 1 ∧ s.subFrame = n / 4 % 8 + 1 ∧
      (∀ c : Fin 4, t.ledColEn.getLsbD c.val = decide (c.val = n % 4)) ∧
      ∀ r : Fin 3, ∀ i : Cell, i.val = r.val * 4 + n % 4 →
        t.ledRowOn.getLsbD r.val = decide (n / 4 % 8 + 1 ≤ readLevel levels i)

/-- 42_led_multiplexer.md R86, second part: over any 32 consecutive ticks the cursors come back to where
they were, and every LED is lit in exactly `min(lvl, 8)` of them. -/
def Obligations.LedDutyCycleIsTheLevel : Prop :=
  ∀ (s : State) (r : Fin 3) (c : Fin 4),
    (∃ t, ledTicks 32 s = .next t ∧ t.ledColIx = s.ledColIx ∧ t.subFrameIx = s.subFrameIx) ∧
      litCount r c 32 s = min (readLevel s.lvl (cellAt r c)) 8

/-- 42_led_multiplexer.md R88: in every cycle with no LED_TICK and no reset the LED outputs hold; and at
reset no column is driven and every row is off. -/
def Obligations.LedOutputsHoldBetweenTicks : Prop :=
  (∀ (p : PinsIn) (s t : State), runCycle p s = .next t → p.rst = false → p.ledTick = false →
    t.ledColEn = s.ledColEn ∧ t.ledRowOn = s.ledRowOn) ∧
  ∀ (pol : Polarity) (s : State), HoldsResetValues s →
    (∀ c : Fin 4, ledColLine pol s c = .highZ) ∧
      ∀ r : Fin 3, ledRowLine pol s r = .driven (!pol.rowOnLevel)

/-! ## The ports -/

/-- 30_encoding.md R47: every output port, bit by bit, from the state. -/
def Obligations.OutputPortsAreFunctionsOfTheState : Prop :=
  ∀ (pol : Polarity) (s : State),
    (outputs pol s).ledColOe = s.ledColEn ∧
    (∀ c : Fin 4, (outputs pol s).ledColO.getLsbD c.val = pol.colActiveLevel) ∧
    (∀ r : Fin 3, (outputs pol s).ledRowO.getLsbD r.val =
      if s.ledRowOn.getLsbD r.val then pol.rowOnLevel else !pol.rowOnLevel) ∧
    (∀ r : Fin 3, (outputs pol s).swRowOe.getLsbD r.val = decide (r.val = s.swRow - 1)) ∧
    (outputs pol s).swRowO = 0b000 ∧
    (outputs pol s).rspValid = s.rspValid ∧
    (outputs pol s).rsp = s.rsp ∧
    (outputs pol s).errPressFull = s.errFull .press ∧
    (outputs pol s).errReleaseFull = s.errFull .release

/-- 10_state.md R28: in every state row-select line `r` is driven low exactly when `r == swRow − 1`, and
the others are inputs; at reset row 0 is driven low. -/
def Obligations.SwitchRowLinesFollowTheCursor : Prop :=
  (∀ (s : State) (r : Fin 3),
    swRowLine s r = if r.val = s.swRow - 1 then .driven false else .highZ) ∧
  swRowLine State.reset 0 = .driven false

/-! ## The switch scanner -/

/-- 41_switch_scanner.md R70, R71, R75: the effect of SW_TICK on the switch grids and the row cursor, and
all it leaves as it was. The target is fixed at synthesis (00_scope.md R8) and stands in State by the model's
choice (log entry 3). The events it pushes are `SwTickPushesTheConfirmedTransitions`. -/
def Obligations.SwTickDebouncesTheScannedRow : Prop :=
  ∀ (s : State) (cols : Nibble), ∃ t, exec (.swTick cols) s = .next t ∧
    (∀ c : Fin 4,
      let i := cellAt s.swRowIx c
      let v := cols.getLsbD c.val
      (v ≠ readCell s.last i →
        readCell t.last i = v ∧ readCount t.cnt i = 0 ∧ readCell t.conf i = readCell s.conf i) ∧
      (v = readCell s.last i → readCount s.cnt i < s.target →
        readCell t.last i = v ∧ readCount t.cnt i = readCount s.cnt i + 1 ∧
          readCell t.conf i = readCell s.conf i) ∧
      (v = readCell s.last i → s.target ≤ readCount s.cnt i →
        readCell t.last i = v ∧ readCount t.cnt i = readCount s.cnt i ∧ readCell t.conf i = v)) ∧
    (∀ j : Cell, rowOf j ≠ s.swRowIx →
      readCell t.last j = readCell s.last j ∧ readCount t.cnt j = readCount s.cnt j ∧
        readCell t.conf j = readCell s.conf j) ∧
    t.swRow = (if s.swRow = 3 then 1 else s.swRow + 1) ∧
    t.cnt.target = s.cnt.target ∧
    t = { s with
      last := t.last
      cnt := t.cnt
      conf := t.conf
      press := t.press
      release := t.release
      errPressFull := t.errPressFull
      errReleaseFull := t.errReleaseFull
      swRowIx := t.swRowIx }

/-- 41_switch_scanner.md R72, R73, R74, R76: every transition a SW_TICK confirms is pushed, presses to
PRESS and releases to RELEASE, in ascending column order; what finds no room is lost, sets the sticky flag
and leaves the entries as they were; the confirmed state is updated either way. The slots that are not
filled keep their bytes. -/
def Obligations.SwTickPushesTheConfirmedTransitions : Prop :=
  ∀ (s : State) (cols : Nibble), (∀ F, (s.fifo F).Ok) →
    ∃ t, exec (.swTick cols) s = .next t ∧
      ∀ v : Bool,
        let F : Channel := if v then .release else .press
        (t.fifo F).Ok ∧
        (t.fifo F).entries = ((s.fifo F).entries ++ confirmedEvents s cols v).take 12 ∧
        t.errFull F = (s.errFull F ||
          decide (12 < (s.fifo F).entries.length + (confirmedEvents s cols v).length)) ∧
        (∀ c : Fin 4, confirms s cols v c = true →
          readCell t.conf (cellAt s.swRowIx c) = v) ∧
        (t.fifo F).head = (s.fifo F).head ∧
        ∀ k : Cell,
          (∀ j, j < (t.fifo F).count.toNat - (s.fifo F).count.toNat →
            k.val ≠ ((s.fifo F).tail.val + j) % 12) →
          readCell (t.fifo F).mem k = readCell (s.fifo F).mem k

/-- 41_switch_scanner.md R77, R78, R79: a cell whose reading changes to `v` and stays there. After
`3 × n` more SW_TICKs (its samples are three ticks apart, and what the ticks between read is free) the
counter is `min(n, T)`, the confirmed state has changed exactly from the `(T + 2)`-th sample on (`n = T + 1`),
and exactly one transition was confirmed, if the confirmed state was not `v`. 92_eei_decisions.md D29
fixes this count. A run whose first sample equals the last reading is left to
`SwTickDebouncesTheScannedRow`, which says what each of its samples does. -/
def Obligations.TransitionTakesTPlusTwoSamples : Prop :=
  ∀ (s : State) (i : Cell) (v : Bool) (n : Nat) (reads : List Nibble),
    reads.length = 3 * n + 1 → s.swRowIx = rowOf i → readCell s.last i ≠ v →
    (∀ k, k ≤ n → (reads.getD (3 * k) 0).getLsbD (colOf i).val = v) →
    ∃ t, swTicks reads s = .next t ∧
      readCell t.last i = v ∧
      readCount t.cnt i = min n s.target ∧
      readCell t.conf i = (if s.target + 1 ≤ n then v else readCell s.conf i) ∧
      confirmCount i v reads s = (if s.target + 1 ≤ n ∧ readCell s.conf i ≠ v then 1 else 0) ∧
      confirmCount i (!v) reads s = 0

/-- 70_reset_and_hazards.md R119, its bounds, for both channels: one SW_TICK confirms at most 4 transitions to
`v`; any `6 × (T + 2)` consecutive SW_TICKs confirm at most one at each cell, so at most 12 in all. The second
bound depends on the exact count of `T + 2` samples, which is the spec's own choice where its source contradicts
itself (92_eei_decisions.md D29, 93_implementation_defined.md U16): where a transition is confirmed on another
sample, the bound is another. -/
def Obligations.EventRateIsBounded : Prop :=
  ∀ (s : State) (v : Bool) (reads : List Nibble),
    (∀ cols, (confirmedEvents s cols v).length ≤ 4) ∧
    (reads.length ≤ 6 * (s.target + 2) →
      (∀ i, confirmCount i v reads s ≤ 1) ∧
        ((List.finRange 12).map fun i => confirmCount i v reads s).sum ≤ 12)

/-- 40_event_fifo.md R67, R68 and 70_reset_and_hazards.md R120: the state of one channel never changes
what a SW_TICK does to the rest of the block, nor the other channel. -/
def Obligations.ReleaseChannelNeverAffectsThePressPath : Prop :=
  ∀ (s t : State) (cols : Nibble) (f : Fifo) (e : Bool), exec (.swTick cols) s = .next t →
    (∃ f' e', exec (.swTick cols) { s with release := f, errReleaseFull := e } =
      .next { t with release := f', errReleaseFull := e' }) ∧
    ∃ f' e', exec (.swTick cols) { s with press := f, errPressFull := e } =
      .next { t with press := f', errPressFull := e' }

/-- 70_reset_and_hazards.md R124: LED_TICK and SW_TICK touch disjoint state, so their order is not
observable. -/
def Obligations.TicksCommute : Prop :=
  ∀ (s : State) (cols : Nibble), ∃ a b t : State,
    exec (.swTick cols) s = .next a ∧ exec .ledTick a = .next t ∧
      exec .ledTick s = .next b ∧ exec (.swTick cols) b = .next t

/-! ## The FIFOs -/

/-- 40_event_fifo.md R61: FifoWrite on a full FIFO and on one with room. -/
def Obligations.FifoWriteAppendsOrRaises : Prop :=
  ∀ (F : Channel) (v : Cell) (s : State),
    ((s.fifo F).count = 12 → fifoWrite F v s = s.setErrFull F true) ∧
    ((s.fifo F).count ≠ 12 → ∃ f : Fifo, fifoWrite F v s = s.setFifo F f ∧
      f.head = (s.fifo F).head ∧
      f.tail.val = ((s.fifo F).tail.val + 1) % 12 ∧
      f.count = (s.fifo F).count + 1 ∧
      (readCell f.mem (s.fifo F).tail).toNat = v.val ∧
      ∀ k : Cell, k ≠ (s.fifo F).tail → readCell f.mem k = readCell (s.fifo F).mem k)

/-- 40_event_fifo.md R65: for every sequence of writes and reads of one FIFO, what it held and what the
successful writes put in is what the successful reads returned, in order and once each, and what it
still holds. -/
def Obligations.FifoReturnsWritesInOrder : Prop :=
  ∀ (F : Channel) (ops : List FifoOp) (s : State), (s.fifo F).Ok →
    (s.fifo F).entries ++ acceptedWrites F ops s =
        returnedReads F ops s ++ ((runFifoOps F ops s).fifo F).entries ∧
      ((runFifoOps F ops s).fifo F).Ok

/-- 40_event_fifo.md R66: from an empty FIFO twelve writes succeed and the thirteenth fails with
BufferFull; after twelve reads of a full FIFO the next read returns EMPTY. -/
def Obligations.FifoCapacityIsTwelve : Prop :=
  (∀ (F : Channel) (s : State) (vs : List Cell) (v : Cell),
    (s.fifo F).Ok → (s.fifo F).count = 0 → vs.length = 12 →
    let t := runFifoOps F (vs.map .write) s
    t.errFull F = s.errFull F ∧
      (t.fifo F).entries = vs.map (fun c => BitVec.ofNat 8 c.val) ∧
      fifoWrite F v t = t.setErrFull F true) ∧
  ∀ (F : Channel) (s : State), (s.fifo F).Ok → (s.fifo F).count = 12 →
    let t := runFifoOps F (List.replicate 12 .read) s
    returnedReads F (List.replicate 12 .read) s = (s.fifo F).entries ∧
      fifoReadRespond F t = { t with rspValid := true, rsp := 0x1000 }

/-! ## Rules of the whole machine -/

/-- The invariant of every reachable state holds at reset (10_state.md R22 and the ranges of R15). -/
def Obligations.InvHoldsAtReset : Prop := Invariant State.reset

/-- Every step keeps the invariant: the FIFO invariant of 10_state.md R22, the ranges of R17, R19 and R26,
and the status codes of 60_exceptions.md R99. A step with no input waiting is an idle cycle (log entry 1). -/
def Obligations.EveryStepKeepsInv : Prop :=
  ∀ s t : State, Invariant s → step s = .next t → Invariant t

/-- 20_memory.md R43: each state element has one kind of writer. The last clause is not R43's: that no operation
changes the build's parameters rests on 00_scope.md R8 and R9, and that they stand in State is the model's
choice (log entry 3), as is the list of inputs, which no operation touches (log entry 1). -/
def Obligations.EachElementHasOneWriter : Prop :=
  ∀ (i : Instr) (s t : State), exec i s = .next t →
    (t.lvl ≠ s.lvl → ∃ idx level, i = .setLevel idx level) ∧
    (t.last ≠ s.last ∨ t.cnt ≠ s.cnt ∨ t.conf ≠ s.conf ∨ t.swRowIx ≠ s.swRowIx →
      ∃ cols, i = .swTick cols) ∧
    (∀ F, (t.fifo F).mem ≠ (s.fifo F).mem ∨ (t.fifo F).tail ≠ (s.fifo F).tail →
      ∃ cols, i = .swTick cols) ∧
    (t.press.head ≠ s.press.head → i = .readPress) ∧
    (t.release.head ≠ s.release.head → i = .readRelease) ∧
    (t.press.count ≠ s.press.count → i = .readPress ∨ ∃ cols, i = .swTick cols) ∧
    (t.release.count ≠ s.release.count → i = .readRelease ∨ ∃ cols, i = .swTick cols) ∧
    (t.ledColIx ≠ s.ledColIx ∨ t.subFrameIx ≠ s.subFrameIx ∨ t.ledColEn ≠ s.ledColEn ∨
      t.ledRowOn ≠ s.ledRowOn → i = .ledTick) ∧
    (∀ F, s.errFull F = false → t.errFull F = true → ∃ cols, i = .swTick cols) ∧
    (∀ F, s.errFull F = true → t.errFull F = false → ∃ mask, i = .clearErr mask) ∧
    (t.rspValid ≠ s.rspValid ∨ t.rsp ≠ s.rsp → i ≠ .ledTick ∧ ∀ cols, i ≠ .swTick cols) ∧
    t.params = s.params ∧ t.inputs = s.inputs

/-- 60_exceptions.md R107: nothing stops the block. Every step answers a next state, one with no input waiting
too (log entry 1). -/
def Obligations.EveryStepAnswersANextState : Prop := ∀ s : State, ∃ t, step s = .next t

/-- 00_scope.md R8: the parameters cannot change at run time, whatever the cycle, a reset included; and a
step takes one cycle of inputs. That State.reset is the build with the defaults of R8 and R9 is the model's
choice (log entry 3), as is the list of inputs (log entry 1). -/
def Obligations.ParametersNeverChange : Prop :=
  (∀ s t : State, step s = .next t → t.params = s.params ∧ t.inputs = s.inputs.tail) ∧
    State.reset.params = { debounceTarget := 2, levelW := .three }

/-- 10_state.md R33: what the unoccupied FIFO slots hold cannot be told apart by any operation. Two states
that differ only there still differ only there after a step with the same inputs, and show the same on
every output port; the list of inputs is the model's own (log entry 1). So no claim rests on the slots' reset value, which is the model's choice
(log entry 2). -/
def Obligations.FreeSlotsAreUnobservable : Prop :=
  ∀ (pol : Polarity) (s u s' : State), Invariant s → SameButFreeSlots s u → step s = .next s' →
    outputs pol u = outputs pol s ∧ ∃ u', step u = .next u' ∧ SameButFreeSlots s' u'

/-- 00_scope.md R8, 10_state.md R19: CNT_W is `max(1, ceil(log2(T + 1)))`, 2 at the default; it is the least
width of at least one bit that holds every value of 0..T; and a counter holds what CNT_W bits hold, of which
a state that meets the invariant uses 0..T. -/
def Obligations.CounterFitsInCntW : Prop :=
  (∀ p : Params, p.cntW = max 1 (Nat.clog 2 (p.debounceTarget + 1)) ∧ 1 ≤ p.cntW ∧
    p.debounceTarget < 2 ^ p.cntW ∧
    ∀ w, 1 ≤ w → p.debounceTarget < 2 ^ w → p.cntW ≤ w) ∧
  Params.default.cntW = 2 ∧
  ∀ (s : State) (i : Cell),
    readCount s.cnt i < 2 ^ s.params.cntW ∧ (Invariant s → readCount s.cnt i ≤ s.target)

/-! ## Cells, arrays and the assembler -/

/-- 10_state.md R16: the flat index and its inverse. -/
def Obligations.CellAddressing : Prop :=
  (∀ (r : Fin 3) (c : Fin 4), (cellAt r c).val = r.val * 4 + c.val) ∧
  (∀ i : Cell, (rowOf i).val = i.val / 4 ∧ (colOf i).val = i.val % 4) ∧
  ∀ (r : Fin 3) (c : Fin 4), rowOf (cellAt r c) = r ∧ colOf (cellAt r c) = c

/-- 20_memory.md R34, R37: an access moves one whole element of one array, of the width R34 gives it. A read
after a write gives the value written, where it fits the element, and every other element of every array
keeps its value; and so do the widths, fixed at synthesis (00_scope.md R8, R9) and in State by the model's
choice (log entry 3). Of a value that does not fit nothing is said (log entry 17). -/
def Obligations.ArrayReadAfterWrite : Prop :=
  ∀ (A : Space) (i : Cell) (v : Nat) (s : State),
    (v < 2 ^ (match A with
      | .lvl => s.params.levelW.bits
      | .last => 1
      | .cnt => s.params.cntW
      | .conf => 1
      | .pmem => 8
      | .rmem => 8) → memRead A i (memWrite A i v s) = v) ∧
    (memWrite A i v s).params = s.params ∧
    ∀ (B : Space) (j : Cell), B ≠ A ∨ j ≠ i → memRead B j (memWrite A i v s) = memRead B j s

/-- 30_encoding.md R60: the words of the pseudo-instructions. -/
def Obligations.PseudoInstructionWords : Prop :=
  ∀ (p : Params) (idx : Nibble),
    assembleCommand p (expandPseudo p (.ledOff idx.toNat)) =
      some ((0x1 : Nibble) ++ (0x0 : Nibble) ++ idx ++ (0x0 : Nibble)) ∧
    (p.levelW = .three → assembleCommand p (expandPseudo p (.ledFull idx.toNat)) =
      some ((0x1 : Nibble) ++ (0x0 : Nibble) ++ idx ++ (0x7 : Nibble))) ∧
    (p.levelW = .four → assembleCommand p (expandPseudo p (.ledFull idx.toNat)) =
      some ((0x1 : Nibble) ++ (0x0 : Nibble) ++ idx ++ (0xF : Nibble))) ∧
    assembleCommand p (expandPseudo p .clearPressErr) = some 0x7001 ∧
    assembleCommand p (expandPseudo p .clearReleaseErr) = some 0x7002 ∧
    assembleCommand p (expandPseudo p .clearAllErr) = some 0x7003

/-- 30_encoding.md R59: the assembler never emits a word that decodes to ILLEGAL, but through the raw form:
what it emits for a command decodes to that command. -/
def Obligations.AssembledCommandsDecode : Prop :=
  ∀ (p : Params) (i : Instr) (w : Word), assembleCommand p i = some w → decode w = .ok i

/-! ## The refresh phase, step by step -/

/-- 42_led_multiplexer.md R85, R86 as an invariant of every step, in every build: if the cursors stand where
`n` LED_TICKs since reset leave them, then after a step they stand where `n + 1` do if the cycle had an
LED_TICK, where `n` do if it had none, and where 0 do after a reset; and an LED_TICK drives column `n mod 4`.
A step with no input waiting is an idle cycle (log entry 1). -/
def Obligations.EveryStepKeepsTheRefreshPhase : Prop :=
  ∀ (s t : State) (n : Nat), s.ledCol = n % 4 + 1 → s.subFrame = n / 4 % 8 + 1 →
    step s = .next t →
    let p := currentPins s
    let m := if p.rst then 0 else if p.ledTick then n + 1 else n
    t.ledCol = m % 4 + 1 ∧ t.subFrame = m / 4 % 8 + 1 ∧
      (p.rst = false → p.ledTick = true → t.ledColEn = onehot 4 (n % 4))
end

