-- ==== Sys2Proof/Laws/Decode.lean ====
section
/-!
SUPPORT. Laws/Decode.lean: the fields of a command word, once, so that no later proof unfolds one.
-/

namespace Sys2Proof

@[simp] theorem opField_commandWord (op idx data : Nibble) :
    opField (commandWord op idx data) = op := by
  apply BitVec.eq_of_getLsbD_eq
  intro k hk
  simp only [opField, commandWord, BitVec.getLsbD_extractLsb', BitVec.getLsbD_append]
  interval_cases k <;> simp

@[simp] theorem rsvField_commandWord (op idx data : Nibble) :
    rsvField (commandWord op idx data) = 0 := by
  apply BitVec.eq_of_getLsbD_eq
  intro k hk
  simp only [rsvField, commandWord, BitVec.getLsbD_extractLsb', BitVec.getLsbD_append]
  interval_cases k <;> simp

@[simp] theorem idxField_commandWord (op idx data : Nibble) :
    idxField (commandWord op idx data) = idx := by
  apply BitVec.eq_of_getLsbD_eq
  intro k hk
  simp only [idxField, commandWord, BitVec.getLsbD_extractLsb', BitVec.getLsbD_append]
  interval_cases k <;> simp

@[simp] theorem dataField_commandWord (op idx data : Nibble) :
    dataField (commandWord op idx data) = data := by
  apply BitVec.eq_of_getLsbD_eq
  intro k hk
  simp only [dataField, commandWord, BitVec.getLsbD_extractLsb', BitVec.getLsbD_append]
  interval_cases k <;> simp

/-- A word is the concatenation of its four fields (30_encoding.md R48). -/
theorem word_eq_fields (w : Word) :
    w = opField w ++ rsvField w ++ idxField w ++ dataField w := by
  apply BitVec.eq_of_getLsbD_eq
  intro k hk
  simp only [opField, rsvField, idxField, dataField, BitVec.getLsbD_extractLsb',
    BitVec.getLsbD_append]
  interval_cases k <;> simp

/-- A word with RSV = 0 is the command word of its OP, IDX and DATA. -/
theorem commandWord_fields (w : Word) (h : rsvField w = 0) :
    commandWord (opField w) (idxField w) (dataField w) = w := by
  conv_rhs => rw [word_eq_fields w, h]
  rfl

@[simp] theorem okWhen_true (i : Instr) : okWhen true i = .ok i := rfl

@[simp] theorem okWhen_false (i : Instr) : okWhen false i = .error .reservedOperand := rfl

/-- `decode` on a command word of three nibbles: RSV is 0, so only OP and the reserved operand bits
decide. -/
theorem decode_commandWord (op idx data : Nibble) :
    decode (commandWord op idx data) =
      if 8 ≤ op.toNat then .error .reservedOpcode
      else
        match op.toNat with
        | 0 => okWhen (idx == 0 && data == 0) .nop
        | 1 => okWhen true (.setLevel idx.toNat data.toNat)
        | 2 => okWhen (data == 0) (.getLevel idx.toNat)
        | 3 => okWhen (data == 0) (.getSwitch idx.toNat)
        | 4 => okWhen (idx == 0 && data == 0) .readPress
        | 5 => okWhen (idx == 0 && data == 0) .readRelease
        | 6 => okWhen (idx == 0 && data == 0) .getStatus
        | 7 => okWhen (idx == 0 && data.extractLsb' 2 2 == 0) (.clearErr (data.extractLsb' 0 2))
        | _ => .error .reservedOpcode := by
  simp only [decode, opField_commandWord, rsvField_commandWord, idxField_commandWord,
    dataField_commandWord, ne_eq, not_true_eq_false, if_false] <;> rfl

/-- A word that decodes has OP below 8 and RSV 0. -/
theorem decode_ok_fields {w : Word} {i : Instr} (h : decode w = .ok i) :
    (opField w).toNat < 8 ∧ rsvField w = 0 := by
  unfold decode at h
  by_cases h1 : 8 ≤ (opField w).toNat
  · simp [h1] at h
  · by_cases h2 : rsvField w = 0
    · exact ⟨by omega, h2⟩
    · rw [if_neg h1, if_pos h2] at h
      cases h

end Sys2Proof
end

