-- ==== Sys2Proof/Laws/State.lean ====
section
/-!
SUPPORT. Laws/State.lean: what each update of the state does to each field, so that no proof unfolds a
record update. Written once per update and field; each is true by computation.
-/

namespace Sys2Proof.Machine

/-! ## `setFifo` -/

@[simp] theorem State.setFifo_lvl (s : State) (F : Channel) (f : Fifo) : (s.setFifo F f).lvl = s.lvl := by
  cases F <;> rfl
@[simp] theorem State.setFifo_last (s : State) (F : Channel) (f : Fifo) : (s.setFifo F f).last = s.last := by
  cases F <;> rfl
@[simp] theorem State.setFifo_cnt (s : State) (F : Channel) (f : Fifo) : (s.setFifo F f).cnt = s.cnt := by
  cases F <;> rfl
@[simp] theorem State.setFifo_conf (s : State) (F : Channel) (f : Fifo) : (s.setFifo F f).conf = s.conf := by
  cases F <;> rfl
@[simp] theorem State.setFifo_press (s : State) (F : Channel) (f : Fifo) : (s.setFifo F f).press = if F = .press then f else s.press := by
  cases F <;> rfl
@[simp] theorem State.setFifo_release (s : State) (F : Channel) (f : Fifo) : (s.setFifo F f).release = if F = .release then f else s.release := by
  cases F <;> rfl
@[simp] theorem State.setFifo_ledColIx (s : State) (F : Channel) (f : Fifo) : (s.setFifo F f).ledColIx = s.ledColIx := by
  cases F <;> rfl
@[simp] theorem State.setFifo_subFrameIx (s : State) (F : Channel) (f : Fifo) : (s.setFifo F f).subFrameIx = s.subFrameIx := by
  cases F <;> rfl
@[simp] theorem State.setFifo_swRowIx (s : State) (F : Channel) (f : Fifo) : (s.setFifo F f).swRowIx = s.swRowIx := by
  cases F <;> rfl
@[simp] theorem State.setFifo_ledColEn (s : State) (F : Channel) (f : Fifo) : (s.setFifo F f).ledColEn = s.ledColEn := by
  cases F <;> rfl
@[simp] theorem State.setFifo_ledRowOn (s : State) (F : Channel) (f : Fifo) : (s.setFifo F f).ledRowOn = s.ledRowOn := by
  cases F <;> rfl
@[simp] theorem State.setFifo_errPressFull (s : State) (F : Channel) (f : Fifo) : (s.setFifo F f).errPressFull = s.errPressFull := by
  cases F <;> rfl
@[simp] theorem State.setFifo_errReleaseFull (s : State) (F : Channel) (f : Fifo) : (s.setFifo F f).errReleaseFull = s.errReleaseFull := by
  cases F <;> rfl
@[simp] theorem State.setFifo_rspValid (s : State) (F : Channel) (f : Fifo) : (s.setFifo F f).rspValid = s.rspValid := by
  cases F <;> rfl
@[simp] theorem State.setFifo_rsp (s : State) (F : Channel) (f : Fifo) : (s.setFifo F f).rsp = s.rsp := by
  cases F <;> rfl
@[simp] theorem State.setFifo_inputs (s : State) (F : Channel) (f : Fifo) : (s.setFifo F f).inputs = s.inputs := by
  cases F <;> rfl

/-! ## `setErrFull` -/

@[simp] theorem State.setErrFull_lvl (s : State) (F : Channel) (b : Bool) : (s.setErrFull F b).lvl = s.lvl := by
  cases F <;> rfl
@[simp] theorem State.setErrFull_last (s : State) (F : Channel) (b : Bool) : (s.setErrFull F b).last = s.last := by
  cases F <;> rfl
@[simp] theorem State.setErrFull_cnt (s : State) (F : Channel) (b : Bool) : (s.setErrFull F b).cnt = s.cnt := by
  cases F <;> rfl
@[simp] theorem State.setErrFull_conf (s : State) (F : Channel) (b : Bool) : (s.setErrFull F b).conf = s.conf := by
  cases F <;> rfl
@[simp] theorem State.setErrFull_press (s : State) (F : Channel) (b : Bool) : (s.setErrFull F b).press = s.press := by
  cases F <;> rfl
@[simp] theorem State.setErrFull_release (s : State) (F : Channel) (b : Bool) : (s.setErrFull F b).release = s.release := by
  cases F <;> rfl
@[simp] theorem State.setErrFull_ledColIx (s : State) (F : Channel) (b : Bool) : (s.setErrFull F b).ledColIx = s.ledColIx := by
  cases F <;> rfl
@[simp] theorem State.setErrFull_subFrameIx (s : State) (F : Channel) (b : Bool) : (s.setErrFull F b).subFrameIx = s.subFrameIx := by
  cases F <;> rfl
@[simp] theorem State.setErrFull_swRowIx (s : State) (F : Channel) (b : Bool) : (s.setErrFull F b).swRowIx = s.swRowIx := by
  cases F <;> rfl
@[simp] theorem State.setErrFull_ledColEn (s : State) (F : Channel) (b : Bool) : (s.setErrFull F b).ledColEn = s.ledColEn := by
  cases F <;> rfl
@[simp] theorem State.setErrFull_ledRowOn (s : State) (F : Channel) (b : Bool) : (s.setErrFull F b).ledRowOn = s.ledRowOn := by
  cases F <;> rfl
@[simp] theorem State.setErrFull_errPressFull (s : State) (F : Channel) (b : Bool) : (s.setErrFull F b).errPressFull = if F = .press then b else s.errPressFull := by
  cases F <;> rfl
@[simp] theorem State.setErrFull_errReleaseFull (s : State) (F : Channel) (b : Bool) : (s.setErrFull F b).errReleaseFull = if F = .release then b else s.errReleaseFull := by
  cases F <;> rfl
@[simp] theorem State.setErrFull_rspValid (s : State) (F : Channel) (b : Bool) : (s.setErrFull F b).rspValid = s.rspValid := by
  cases F <;> rfl
@[simp] theorem State.setErrFull_rsp (s : State) (F : Channel) (b : Bool) : (s.setErrFull F b).rsp = s.rsp := by
  cases F <;> rfl
@[simp] theorem State.setErrFull_inputs (s : State) (F : Channel) (b : Bool) : (s.setErrFull F b).inputs = s.inputs := by
  cases F <;> rfl

/-! ## `respond` -/

@[simp] theorem respond_lvl (st : Status) (v : Value) (s : State) : (respond st v s).lvl = s.lvl :=
  rfl
@[simp] theorem respond_last (st : Status) (v : Value) (s : State) : (respond st v s).last = s.last :=
  rfl
@[simp] theorem respond_cnt (st : Status) (v : Value) (s : State) : (respond st v s).cnt = s.cnt :=
  rfl
@[simp] theorem respond_conf (st : Status) (v : Value) (s : State) : (respond st v s).conf = s.conf :=
  rfl
@[simp] theorem respond_press (st : Status) (v : Value) (s : State) : (respond st v s).press = s.press :=
  rfl
@[simp] theorem respond_release (st : Status) (v : Value) (s : State) : (respond st v s).release = s.release :=
  rfl
@[simp] theorem respond_ledColIx (st : Status) (v : Value) (s : State) : (respond st v s).ledColIx = s.ledColIx :=
  rfl
@[simp] theorem respond_subFrameIx (st : Status) (v : Value) (s : State) : (respond st v s).subFrameIx = s.subFrameIx :=
  rfl
@[simp] theorem respond_swRowIx (st : Status) (v : Value) (s : State) : (respond st v s).swRowIx = s.swRowIx :=
  rfl
@[simp] theorem respond_ledColEn (st : Status) (v : Value) (s : State) : (respond st v s).ledColEn = s.ledColEn :=
  rfl
@[simp] theorem respond_ledRowOn (st : Status) (v : Value) (s : State) : (respond st v s).ledRowOn = s.ledRowOn :=
  rfl
@[simp] theorem respond_errPressFull (st : Status) (v : Value) (s : State) : (respond st v s).errPressFull = s.errPressFull :=
  rfl
@[simp] theorem respond_errReleaseFull (st : Status) (v : Value) (s : State) : (respond st v s).errReleaseFull = s.errReleaseFull :=
  rfl
@[simp] theorem respond_rspValid (st : Status) (v : Value) (s : State) : (respond st v s).rspValid = true :=
  rfl
@[simp] theorem respond_rsp (st : Status) (v : Value) (s : State) : (respond st v s).rsp = responseWord st v :=
  rfl
@[simp] theorem respond_inputs (st : Status) (v : Value) (s : State) : (respond st v s).inputs = s.inputs :=
  rfl

/-! ## `fail` -/

@[simp] theorem fail_lvl (st : Status) (s : State) : (fail st s).lvl = s.lvl := rfl
@[simp] theorem fail_last (st : Status) (s : State) : (fail st s).last = s.last := rfl
@[simp] theorem fail_cnt (st : Status) (s : State) : (fail st s).cnt = s.cnt := rfl
@[simp] theorem fail_conf (st : Status) (s : State) : (fail st s).conf = s.conf := rfl
@[simp] theorem fail_press (st : Status) (s : State) : (fail st s).press = s.press := rfl
@[simp] theorem fail_release (st : Status) (s : State) : (fail st s).release = s.release := rfl
@[simp] theorem fail_ledColIx (st : Status) (s : State) : (fail st s).ledColIx = s.ledColIx := rfl
@[simp] theorem fail_subFrameIx (st : Status) (s : State) : (fail st s).subFrameIx = s.subFrameIx :=
  rfl
@[simp] theorem fail_swRowIx (st : Status) (s : State) : (fail st s).swRowIx = s.swRowIx := rfl
@[simp] theorem fail_ledColEn (st : Status) (s : State) : (fail st s).ledColEn = s.ledColEn := rfl
@[simp] theorem fail_ledRowOn (st : Status) (s : State) : (fail st s).ledRowOn = s.ledRowOn := rfl
@[simp] theorem fail_errPressFull (st : Status) (s : State) : (fail st s).errPressFull = s.errPressFull :=
  rfl
@[simp] theorem fail_errReleaseFull (st : Status) (s : State) : (fail st s).errReleaseFull = s.errReleaseFull :=
  rfl
@[simp] theorem fail_rspValid (st : Status) (s : State) : (fail st s).rspValid = true := rfl
@[simp] theorem fail_rsp (st : Status) (s : State) : (fail st s).rsp = responseWord st 0 := rfl
@[simp] theorem fail_inputs (st : Status) (s : State) : (fail st s).inputs = s.inputs := rfl

/-! ## `portIdle` -/

@[simp] theorem portIdle_lvl (s : State) : (portIdle s).lvl = s.lvl := rfl
@[simp] theorem portIdle_last (s : State) : (portIdle s).last = s.last := rfl
@[simp] theorem portIdle_cnt (s : State) : (portIdle s).cnt = s.cnt := rfl
@[simp] theorem portIdle_conf (s : State) : (portIdle s).conf = s.conf := rfl
@[simp] theorem portIdle_press (s : State) : (portIdle s).press = s.press := rfl
@[simp] theorem portIdle_release (s : State) : (portIdle s).release = s.release := rfl
@[simp] theorem portIdle_ledColIx (s : State) : (portIdle s).ledColIx = s.ledColIx := rfl
@[simp] theorem portIdle_subFrameIx (s : State) : (portIdle s).subFrameIx = s.subFrameIx := rfl
@[simp] theorem portIdle_swRowIx (s : State) : (portIdle s).swRowIx = s.swRowIx := rfl
@[simp] theorem portIdle_ledColEn (s : State) : (portIdle s).ledColEn = s.ledColEn := rfl
@[simp] theorem portIdle_ledRowOn (s : State) : (portIdle s).ledRowOn = s.ledRowOn := rfl
@[simp] theorem portIdle_errPressFull (s : State) : (portIdle s).errPressFull = s.errPressFull :=
  rfl
@[simp] theorem portIdle_errReleaseFull (s : State) : (portIdle s).errReleaseFull = s.errReleaseFull :=
  rfl
@[simp] theorem portIdle_rspValid (s : State) : (portIdle s).rspValid = false := rfl
@[simp] theorem portIdle_rsp (s : State) : (portIdle s).rsp = s.rsp := rfl
@[simp] theorem portIdle_inputs (s : State) : (portIdle s).inputs = s.inputs := rfl

/-! ## `popInput` -/

@[simp] theorem popInput_lvl (s : State) : (popInput s).lvl = s.lvl := rfl
@[simp] theorem popInput_last (s : State) : (popInput s).last = s.last := rfl
@[simp] theorem popInput_cnt (s : State) : (popInput s).cnt = s.cnt := rfl
@[simp] theorem popInput_conf (s : State) : (popInput s).conf = s.conf := rfl
@[simp] theorem popInput_press (s : State) : (popInput s).press = s.press := rfl
@[simp] theorem popInput_release (s : State) : (popInput s).release = s.release := rfl
@[simp] theorem popInput_ledColIx (s : State) : (popInput s).ledColIx = s.ledColIx := rfl
@[simp] theorem popInput_subFrameIx (s : State) : (popInput s).subFrameIx = s.subFrameIx := rfl
@[simp] theorem popInput_swRowIx (s : State) : (popInput s).swRowIx = s.swRowIx := rfl
@[simp] theorem popInput_ledColEn (s : State) : (popInput s).ledColEn = s.ledColEn := rfl
@[simp] theorem popInput_ledRowOn (s : State) : (popInput s).ledRowOn = s.ledRowOn := rfl
@[simp] theorem popInput_errPressFull (s : State) : (popInput s).errPressFull = s.errPressFull :=
  rfl
@[simp] theorem popInput_errReleaseFull (s : State) : (popInput s).errReleaseFull = s.errReleaseFull :=
  rfl
@[simp] theorem popInput_rspValid (s : State) : (popInput s).rspValid = s.rspValid := rfl
@[simp] theorem popInput_rsp (s : State) : (popInput s).rsp = s.rsp := rfl
@[simp] theorem popInput_inputs (s : State) : (popInput s).inputs = s.inputs.tail := rfl

/-! ## `presentPins` -/

@[simp] theorem presentPins_lvl (p : PinsIn) (s : State) : (presentPins p s).lvl = s.lvl := rfl
@[simp] theorem presentPins_last (p : PinsIn) (s : State) : (presentPins p s).last = s.last := rfl
@[simp] theorem presentPins_cnt (p : PinsIn) (s : State) : (presentPins p s).cnt = s.cnt := rfl
@[simp] theorem presentPins_conf (p : PinsIn) (s : State) : (presentPins p s).conf = s.conf := rfl
@[simp] theorem presentPins_press (p : PinsIn) (s : State) : (presentPins p s).press = s.press :=
  rfl
@[simp] theorem presentPins_release (p : PinsIn) (s : State) : (presentPins p s).release = s.release :=
  rfl
@[simp] theorem presentPins_ledColIx (p : PinsIn) (s : State) : (presentPins p s).ledColIx = s.ledColIx :=
  rfl
@[simp] theorem presentPins_subFrameIx (p : PinsIn) (s : State) : (presentPins p s).subFrameIx = s.subFrameIx :=
  rfl
@[simp] theorem presentPins_swRowIx (p : PinsIn) (s : State) : (presentPins p s).swRowIx = s.swRowIx :=
  rfl
@[simp] theorem presentPins_ledColEn (p : PinsIn) (s : State) : (presentPins p s).ledColEn = s.ledColEn :=
  rfl
@[simp] theorem presentPins_ledRowOn (p : PinsIn) (s : State) : (presentPins p s).ledRowOn = s.ledRowOn :=
  rfl
@[simp] theorem presentPins_errPressFull (p : PinsIn) (s : State) : (presentPins p s).errPressFull = s.errPressFull :=
  rfl
@[simp] theorem presentPins_errReleaseFull (p : PinsIn) (s : State) : (presentPins p s).errReleaseFull = s.errReleaseFull :=
  rfl
@[simp] theorem presentPins_rspValid (p : PinsIn) (s : State) : (presentPins p s).rspValid = s.rspValid :=
  rfl
@[simp] theorem presentPins_rsp (p : PinsIn) (s : State) : (presentPins p s).rsp = s.rsp := rfl
@[simp] theorem presentPins_inputs (p : PinsIn) (s : State) : (presentPins p s).inputs = p :: s.inputs.tail :=
  rfl

/-! ## `noteChange` -/

@[simp] theorem noteChange_lvl (i : Cell) (v : Bool) (s : State) : (noteChange i v s).lvl = s.lvl :=
  rfl
@[simp] theorem noteChange_last (i : Cell) (v : Bool) (s : State) : (noteChange i v s).last = writeCell s.last i v :=
  rfl
@[simp] theorem noteChange_cnt (i : Cell) (v : Bool) (s : State) : (noteChange i v s).cnt = writeCount s.cnt i 0 :=
  rfl
@[simp] theorem noteChange_conf (i : Cell) (v : Bool) (s : State) : (noteChange i v s).conf = s.conf :=
  rfl
@[simp] theorem noteChange_press (i : Cell) (v : Bool) (s : State) : (noteChange i v s).press = s.press :=
  rfl
@[simp] theorem noteChange_release (i : Cell) (v : Bool) (s : State) : (noteChange i v s).release = s.release :=
  rfl
@[simp] theorem noteChange_ledColIx (i : Cell) (v : Bool) (s : State) : (noteChange i v s).ledColIx = s.ledColIx :=
  rfl
@[simp] theorem noteChange_subFrameIx (i : Cell) (v : Bool) (s : State) : (noteChange i v s).subFrameIx = s.subFrameIx :=
  rfl
@[simp] theorem noteChange_swRowIx (i : Cell) (v : Bool) (s : State) : (noteChange i v s).swRowIx = s.swRowIx :=
  rfl
@[simp] theorem noteChange_ledColEn (i : Cell) (v : Bool) (s : State) : (noteChange i v s).ledColEn = s.ledColEn :=
  rfl
@[simp] theorem noteChange_ledRowOn (i : Cell) (v : Bool) (s : State) : (noteChange i v s).ledRowOn = s.ledRowOn :=
  rfl
@[simp] theorem noteChange_errPressFull (i : Cell) (v : Bool) (s : State) : (noteChange i v s).errPressFull = s.errPressFull :=
  rfl
@[simp] theorem noteChange_errReleaseFull (i : Cell) (v : Bool) (s : State) : (noteChange i v s).errReleaseFull = s.errReleaseFull :=
  rfl
@[simp] theorem noteChange_rspValid (i : Cell) (v : Bool) (s : State) : (noteChange i v s).rspValid = s.rspValid :=
  rfl
@[simp] theorem noteChange_rsp (i : Cell) (v : Bool) (s : State) : (noteChange i v s).rsp = s.rsp :=
  rfl
@[simp] theorem noteChange_inputs (i : Cell) (v : Bool) (s : State) : (noteChange i v s).inputs = s.inputs :=
  rfl

/-! ## `countStable` -/

@[simp] theorem countStable_lvl (i : Cell) (s : State) : (countStable i s).lvl = s.lvl := rfl
@[simp] theorem countStable_last (i : Cell) (s : State) : (countStable i s).last = s.last := rfl
@[simp] theorem countStable_cnt (i : Cell) (s : State) : (countStable i s).cnt = writeCount s.cnt i (readCount s.cnt i + 1) :=
  rfl
@[simp] theorem countStable_conf (i : Cell) (s : State) : (countStable i s).conf = s.conf := rfl
@[simp] theorem countStable_press (i : Cell) (s : State) : (countStable i s).press = s.press := rfl
@[simp] theorem countStable_release (i : Cell) (s : State) : (countStable i s).release = s.release :=
  rfl
@[simp] theorem countStable_ledColIx (i : Cell) (s : State) : (countStable i s).ledColIx = s.ledColIx :=
  rfl
@[simp] theorem countStable_subFrameIx (i : Cell) (s : State) : (countStable i s).subFrameIx = s.subFrameIx :=
  rfl
@[simp] theorem countStable_swRowIx (i : Cell) (s : State) : (countStable i s).swRowIx = s.swRowIx :=
  rfl
@[simp] theorem countStable_ledColEn (i : Cell) (s : State) : (countStable i s).ledColEn = s.ledColEn :=
  rfl
@[simp] theorem countStable_ledRowOn (i : Cell) (s : State) : (countStable i s).ledRowOn = s.ledRowOn :=
  rfl
@[simp] theorem countStable_errPressFull (i : Cell) (s : State) : (countStable i s).errPressFull = s.errPressFull :=
  rfl
@[simp] theorem countStable_errReleaseFull (i : Cell) (s : State) : (countStable i s).errReleaseFull = s.errReleaseFull :=
  rfl
@[simp] theorem countStable_rspValid (i : Cell) (s : State) : (countStable i s).rspValid = s.rspValid :=
  rfl
@[simp] theorem countStable_rsp (i : Cell) (s : State) : (countStable i s).rsp = s.rsp := rfl
@[simp] theorem countStable_inputs (i : Cell) (s : State) : (countStable i s).inputs = s.inputs :=
  rfl

/-! ## `ledTick` -/

@[simp] theorem ledTick_lvl (s : State) : (ledTick s).lvl = s.lvl := rfl
@[simp] theorem ledTick_last (s : State) : (ledTick s).last = s.last := rfl
@[simp] theorem ledTick_cnt (s : State) : (ledTick s).cnt = s.cnt := rfl
@[simp] theorem ledTick_conf (s : State) : (ledTick s).conf = s.conf := rfl
@[simp] theorem ledTick_press (s : State) : (ledTick s).press = s.press := rfl
@[simp] theorem ledTick_release (s : State) : (ledTick s).release = s.release := rfl
@[simp] theorem ledTick_ledColIx (s : State) : (ledTick s).ledColIx = nextCol s.ledColIx := rfl
@[simp] theorem ledTick_subFrameIx (s : State) : (ledTick s).subFrameIx = if s.ledCol = 4 then nextSubFrame s.subFrameIx else s.subFrameIx :=
  rfl
@[simp] theorem ledTick_swRowIx (s : State) : (ledTick s).swRowIx = s.swRowIx := rfl
@[simp] theorem ledTick_ledColEn (s : State) : (ledTick s).ledColEn = onehot 4 s.ledColIx.val :=
  rfl
@[simp] theorem ledTick_ledRowOn (s : State) : (ledTick s).ledRowOn = rowPattern s := rfl
@[simp] theorem ledTick_errPressFull (s : State) : (ledTick s).errPressFull = s.errPressFull := rfl
@[simp] theorem ledTick_errReleaseFull (s : State) : (ledTick s).errReleaseFull = s.errReleaseFull :=
  rfl
@[simp] theorem ledTick_rspValid (s : State) : (ledTick s).rspValid = s.rspValid := rfl
@[simp] theorem ledTick_rsp (s : State) : (ledTick s).rsp = s.rsp := rfl
@[simp] theorem ledTick_inputs (s : State) : (ledTick s).inputs = s.inputs := rfl

/-! ## `applyReset` -/

@[simp] theorem applyReset_lvl (s : State) : (applyReset s).lvl = { width := s.lvl.width, cells := Vector.replicate 12 0 } :=
  rfl
@[simp] theorem applyReset_last (s : State) : (applyReset s).last = State.reset.last := rfl
@[simp] theorem applyReset_cnt (s : State) : (applyReset s).cnt = { target := s.cnt.target, cells := Vector.replicate 12 0 } :=
  rfl
@[simp] theorem applyReset_conf (s : State) : (applyReset s).conf = State.reset.conf := rfl
@[simp] theorem applyReset_press (s : State) : (applyReset s).press = State.reset.press := rfl
@[simp] theorem applyReset_release (s : State) : (applyReset s).release = State.reset.release :=
  rfl
@[simp] theorem applyReset_ledColIx (s : State) : (applyReset s).ledColIx = State.reset.ledColIx :=
  rfl
@[simp] theorem applyReset_subFrameIx (s : State) : (applyReset s).subFrameIx = State.reset.subFrameIx :=
  rfl
@[simp] theorem applyReset_swRowIx (s : State) : (applyReset s).swRowIx = State.reset.swRowIx :=
  rfl
@[simp] theorem applyReset_ledColEn (s : State) : (applyReset s).ledColEn = State.reset.ledColEn :=
  rfl
@[simp] theorem applyReset_ledRowOn (s : State) : (applyReset s).ledRowOn = State.reset.ledRowOn :=
  rfl
@[simp] theorem applyReset_errPressFull (s : State) : (applyReset s).errPressFull = State.reset.errPressFull :=
  rfl
@[simp] theorem applyReset_errReleaseFull (s : State) : (applyReset s).errReleaseFull = State.reset.errReleaseFull :=
  rfl
@[simp] theorem applyReset_rspValid (s : State) : (applyReset s).rspValid = State.reset.rspValid :=
  rfl
@[simp] theorem applyReset_rsp (s : State) : (applyReset s).rsp = State.reset.rsp := rfl
@[simp] theorem applyReset_inputs (s : State) : (applyReset s).inputs = s.inputs := rfl

/-! ## The build's parameters -/

@[simp] theorem State.params_debounceTarget (s : State) : s.params.debounceTarget = s.cnt.target := rfl
@[simp] theorem State.params_levelW (s : State) : s.params.levelW = s.lvl.width := rfl
@[simp] theorem writeLevel_width (g : LevelGrid) (i : Cell) (v : Nat) :
    (writeLevel g i v).width = g.width := rfl
@[simp] theorem writeCount_target (g : CountGrid) (i : Cell) (v : Nat) :
    (writeCount g i v).target = g.target := rfl
@[simp] theorem respond_params (st : Status) (v : Value) (s : State) :
    (respond st v s).params = s.params := rfl
@[simp] theorem fail_params (st : Status) (s : State) : (fail st s).params = s.params := rfl
@[simp] theorem portIdle_params (s : State) : (portIdle s).params = s.params := rfl
@[simp] theorem popInput_params (s : State) : (popInput s).params = s.params := rfl
@[simp] theorem presentPins_params (p : PinsIn) (s : State) : (presentPins p s).params = s.params := rfl
@[simp] theorem noteChange_params (i : Cell) (v : Bool) (s : State) :
    (noteChange i v s).params = s.params := rfl
@[simp] theorem countStable_params (i : Cell) (s : State) : (countStable i s).params = s.params := rfl
@[simp] theorem ledTick_params (s : State) : (ledTick s).params = s.params := rfl
@[simp] theorem applyReset_params (s : State) : (applyReset s).params = s.params := rfl
@[simp] theorem State.setFifo_params (s : State) (F : Channel) (f : Fifo) :
    (s.setFifo F f).params = s.params := by cases F <;> rfl
@[simp] theorem State.setErrFull_params (s : State) (F : Channel) (b : Bool) :
    (s.setErrFull F b).params = s.params := by cases F <;> rfl

/-! ## FIFOs and flags by channel -/

@[simp] theorem State.fifo_setFifo_same (s : State) (F : Channel) (f : Fifo) :
    (s.setFifo F f).fifo F = f := by cases F <;> rfl

theorem State.fifo_setFifo_ne (s : State) (F G : Channel) (f : Fifo) (h : G ≠ F) :
    (s.setFifo F f).fifo G = s.fifo G := by cases F <;> cases G <;> first | rfl | exact absurd rfl h

@[simp] theorem State.fifo_setErrFull (s : State) (F G : Channel) (b : Bool) :
    (s.setErrFull F b).fifo G = s.fifo G := by cases F <;> cases G <;> rfl

@[simp] theorem State.errFull_setErrFull_same (s : State) (F : Channel) (b : Bool) :
    (s.setErrFull F b).errFull F = b := by cases F <;> rfl

theorem State.errFull_setErrFull_ne (s : State) (F G : Channel) (b : Bool) (h : G ≠ F) :
    (s.setErrFull F b).errFull G = s.errFull G := by
  cases F <;> cases G <;> first | rfl | exact absurd rfl h

@[simp] theorem State.errFull_setFifo (s : State) (F G : Channel) (f : Fifo) :
    (s.setFifo F f).errFull G = s.errFull G := by cases F <;> cases G <;> rfl

@[simp] theorem fifo_respond (st : Status) (v : Value) (s : State) (G : Channel) :
    (respond st v s).fifo G = s.fifo G := by cases G <;> rfl

@[simp] theorem errFull_respond (st : Status) (v : Value) (s : State) (G : Channel) :
    (respond st v s).errFull G = s.errFull G := by cases G <;> rfl

@[simp] theorem fifo_noteChange (i : Cell) (v : Bool) (s : State) (G : Channel) :
    (noteChange i v s).fifo G = s.fifo G := by cases G <;> rfl

@[simp] theorem fifo_countStable (i : Cell) (s : State) (G : Channel) :
    (countStable i s).fifo G = s.fifo G := by cases G <;> rfl

@[simp] theorem errFull_noteChange (i : Cell) (v : Bool) (s : State) (G : Channel) :
    (noteChange i v s).errFull G = s.errFull G := by cases G <;> rfl

@[simp] theorem errFull_countStable (i : Cell) (s : State) (G : Channel) :
    (countStable i s).errFull G = s.errFull G := by cases G <;> rfl

end Sys2Proof.Machine
end

