-- ==== Sys2Proof/Laws/Ops.lean ====
section
/-!
SUPPORT. Laws/Ops.lean: for each shared operation, once, everything it can do.
-/

namespace Sys2Proof.Machine

open Sys2Proof.Config

/-! ## Arrays -/

@[simp] theorem readCell_writeCell_same {α : Type} (g : Vector α 12) (i : Cell) (v : α) :
    readCell (writeCell g i v) i = v := by simp [readCell, writeCell]

theorem readCell_writeCell_ne {α : Type} (g : Vector α 12) (i j : Cell) (v : α) (h : i ≠ j) :
    readCell (writeCell g i v) j = readCell g j := by
  have h' : i.val ≠ j.val := fun e => h (Fin.ext e)
  simp [readCell, writeCell, Vector.getElem_set_ne _ _ h']

theorem readCell_writeCell {α : Type} (g : Vector α 12) (i j : Cell) (v : α) :
    readCell (writeCell g i v) j = if i = j then v else readCell g j := by
  split
  · subst_vars; simp
  · exact readCell_writeCell_ne g i j v ‹_›

theorem grid_ext {α : Type} {g h : Vector α 12} (e : ∀ i : Cell, readCell g i = readCell h i) :
    g = h := Vector.ext fun i hi => e ⟨i, hi⟩

@[simp] theorem readCell_replicate {α : Type} (v : α) (i : Cell) :
    readCell (Vector.replicate 12 v) i = v := by simp [readCell]

/-! ## The grids whose width the build fixes -/

theorem lt_two_pow_cntWidth (T : Nat) : T < 2 ^ cntWidth T := by
  unfold cntWidth
  split
  · subst_vars; decide
  · rw [Nat.max_eq_right (Nat.le_add_left 1 _)]
    exact Nat.lt_log2_self

theorem readLevel_lt (g : LevelGrid) (i : Cell) : readLevel g i < 2 ^ g.width.bits :=
  (levelCell g i).isLt

theorem readCount_lt (g : CountGrid) (i : Cell) : readCount g i < 2 ^ cntWidth g.target :=
  (readCell g.cells i).isLt

/-- The levels a cell holds are the levels up to LEVEL_MAX (00_scope.md R9). -/
theorem le_levelMax_iff (s : State) (v : Nat) : v ≤ s.levelMax ↔ v < 2 ^ s.lvl.width.bits := by
  have := Nat.two_pow_pos s.lvl.width.bits
  simp only [State.levelMax, Params.levelMax, State.params_levelW]
  omega

theorem readLevel_le_levelMax (s : State) (i : Cell) : readLevel s.lvl i ≤ s.levelMax :=
  (le_levelMax_iff s _).mpr (readLevel_lt s.lvl i)

/-- All a level write can do: the element takes the low bits of the value, no other element changes. -/
theorem readLevel_writeLevel (g : LevelGrid) (i j : Cell) (v : Nat) :
    readLevel (writeLevel g i v) j = if i = j then v % 2 ^ g.width.bits else readLevel g j := by
  simp only [readLevel, levelCell, writeLevel, readCell_writeCell]
  split <;> simp

/-- All a counter write can do. -/
theorem readCount_writeCount (g : CountGrid) (i j : Cell) (v : Nat) :
    readCount (writeCount g i v) j = if i = j then v % 2 ^ cntWidth g.target else readCount g j := by
  simp only [readCount, writeCount, readCell_writeCell]
  split <;> simp

theorem readLevel_writeLevel_same (g : LevelGrid) (i : Cell) {v : Nat} (h : v < 2 ^ g.width.bits) :
    readLevel (writeLevel g i v) i = v := by
  rw [readLevel_writeLevel, if_pos rfl, Nat.mod_eq_of_lt h]

theorem readLevel_writeLevel_ne (g : LevelGrid) {i j : Cell} (v : Nat) (h : i ≠ j) :
    readLevel (writeLevel g i v) j = readLevel g j := by rw [readLevel_writeLevel, if_neg h]

theorem readCount_writeCount_same (g : CountGrid) (i : Cell) {v : Nat} (h : v ≤ g.target) :
    readCount (writeCount g i v) i = v := by
  rw [readCount_writeCount, if_pos rfl, Nat.mod_eq_of_lt (h.trans_lt (lt_two_pow_cntWidth _))]

theorem readCount_writeCount_ne (g : CountGrid) {i j : Cell} (v : Nat) (h : i ≠ j) :
    readCount (writeCount g i v) j = readCount g j := by rw [readCount_writeCount, if_neg h]

theorem readLevel_resetOf (p : Params) (inputs : List PinsIn) (i : Cell) :
    readLevel (State.resetOf p inputs).lvl i = 0 := by
  simp [State.resetOf, readLevel, levelCell]

theorem readCount_resetOf (p : Params) (inputs : List PinsIn) (i : Cell) :
    readCount (State.resetOf p inputs).cnt i = 0 := by
  simp [State.resetOf, readCount]

/-! ## Cell addressing -/

theorem cellOfIdx_val (i : Cell) : cellOfIdx i.val = some i := by simp [cellOfIdx]

theorem cellOfIdx_none (idx : Nat) (h : 12 ≤ idx) : cellOfIdx idx = none := by
  simp [cellOfIdx, h]

theorem cellAt_rowOf_colOf (i : Cell) : cellAt (rowOf i) (colOf i) = i := by
  apply Fin.ext; simp [cellAt, rowOf, colOf]; omega

theorem rowOf_cellAt (r : Fin 3) (c : Fin 4) : rowOf (cellAt r c) = r := by
  apply Fin.ext; simp [cellAt, rowOf]; omega

theorem colOf_cellAt (r : Fin 3) (c : Fin 4) : colOf (cellAt r c) = c := by
  apply Fin.ext; simp [cellAt, colOf]

theorem cellAt_inj {r r' : Fin 3} {c c' : Fin 4} (h : cellAt r c = cellAt r' c') :
    r = r' ∧ c = c' := by
  refine ⟨?_, ?_⟩
  · rw [← rowOf_cellAt r c, h, rowOf_cellAt]
  · rw [← colOf_cellAt r c, h, colOf_cellAt]

/-! ## FIFO -/

theorem nextSlot_val (k : Cell) : (nextSlot k).val = (k.val + 1) % 12 := by
  revert k; decide

@[simp] theorem slotAt_val (f : Fifo) (k : Nat) : (slotAt f k).val = (f.head.val + k) % 12 := rfl

theorem entries_length (f : Fifo) : f.entries.length = f.count.toNat := by simp [Fifo.entries]

/-- All FifoWrite can do: raise the flag of a full FIFO, or append. -/
theorem fifoWrite_cases (F : Channel) (v : Cell) (s : State) :
    ((s.fifo F).count = 12 ∧ fifoWrite F v s = s.setErrFull F true) ∨
    ((s.fifo F).count ≠ 12 ∧
      fifoWrite F v s = s.setFifo F (pushEntry (s.fifo F) (BitVec.ofNat 8 v.val))) := by
  unfold fifoWrite
  split
  · exact .inl ⟨‹_›, rfl⟩
  · exact .inr ⟨‹_›, rfl⟩

/-- All FifoRead and its response can do: EMPTY with no change, or OK with the oldest entry, removed. -/
theorem fifoReadRespond_cases (F : Channel) (s : State) :
    ((s.fifo F).count = 0 ∧ fifoReadRespond F s = respond .empty 0 s) ∨
    ((s.fifo F).count ≠ 0 ∧ fifoReadRespond F s =
      respond .ok (zext 12 (readCell (s.fifo F).mem (s.fifo F).head))
        (s.setFifo F (dropEntry (s.fifo F)))) := by
  unfold fifoReadRespond
  split
  · exact .inl ⟨‹_›, rfl⟩
  · exact .inr ⟨‹_›, rfl⟩

/-- A push into a FIFO with room appends to its entries and keeps the FIFO invariant. -/
theorem pushEntry_ok {f : Fifo} (h : f.Ok) (hc : f.count ≠ 12) (v : Byte) (hv : v.toNat < 12) :
    (pushEntry f v).Ok ∧ (pushEntry f v).entries = f.entries ++ [v] ∧
      (pushEntry f v).count.toNat = f.count.toNat + 1 := by
  obtain ⟨hle, htl, hent⟩ := h
  have hlt : f.count.toNat < 12 := by
    rcases Nat.lt_or_eq_of_le hle with h | h
    · exact h
    · exact absurd (BitVec.eq_of_toNat_eq (by simpa using h)) hc
  have hcount : (pushEntry f v).count.toNat = f.count.toNat + 1 := by
    simp only [pushEntry, BitVec.toNat_add]; simp; omega
  have hslot : ∀ k, slotAt (pushEntry f v) k = slotAt f k := fun _ => rfl
  have hmem : ∀ k, k < f.count.toNat →
      readCell (pushEntry f v).mem (slotAt f k) = readCell f.mem (slotAt f k) := by
    intro k hk
    apply readCell_writeCell_ne
    intro e
    have := congrArg Fin.val (htl.symm.trans e)
    simp at this
    omega
  have hnew : readCell (pushEntry f v).mem (slotAt f f.count.toNat) = v := by
    rw [← htl]; exact readCell_writeCell_same _ _ _
  refine ⟨⟨by omega, ?_, ?_⟩, ?_, hcount⟩
  · apply Fin.ext
    have : (pushEntry f v).tail = nextSlot f.tail := rfl
    rw [this, nextSlot_val, htl, hslot, hcount]
    simp; omega
  · intro k hk
    rw [hcount] at hk
    rw [hslot]
    rcases Nat.lt_or_eq_of_le (Nat.le_of_lt_succ hk) with h | h
    · rw [hmem _ h]; exact hent k h
    · rw [h, hnew]; exact hv
  · simp only [Fifo.entries, hcount, List.range_succ, List.map_append, List.map_cons, List.map_nil,
      hslot, hnew]
    congr 1
    apply List.map_congr_left
    intro k hk
    exact hmem k (List.mem_range.mp hk)

/-- A read of a FIFO that is not empty takes its first entry off and keeps the FIFO invariant. -/
theorem dropEntry_ok {f : Fifo} (h : f.Ok) (hc : f.count ≠ 0) :
    (dropEntry f).Ok ∧ f.entries = readCell f.mem f.head :: (dropEntry f).entries ∧
      (dropEntry f).count.toNat + 1 = f.count.toNat := by
  obtain ⟨hle, htl, hent⟩ := h
  have hpos : 0 < f.count.toNat := by
    rcases Nat.eq_zero_or_pos f.count.toNat with h | h
    · exact absurd (BitVec.eq_of_toNat_eq (by simpa using h)) hc
    · exact h
  have hcount : (dropEntry f).count.toNat + 1 = f.count.toNat := by
    simp only [dropEntry, BitVec.toNat_sub]; simp; omega
  have hslot : ∀ k, slotAt (dropEntry f) k = slotAt f (k + 1) := by
    intro k
    apply Fin.ext
    have : (dropEntry f).head = nextSlot f.head := rfl
    rw [slotAt_val, this, nextSlot_val]
    simp; omega
  have hmem : (dropEntry f).mem = f.mem := rfl
  have hhead : slotAt f 0 = f.head := by
    apply Fin.ext
    simp [Nat.mod_eq_of_lt f.head.isLt]
  refine ⟨⟨by omega, ?_, ?_⟩, ?_, hcount⟩
  · rw [hslot, hcount]; exact htl
  · intro k hk
    rw [hslot, hmem]
    exact hent ⟨k.val + 1, by omega⟩ (by simp; omega)
  · simp only [Fifo.entries, ← hcount, List.range_succ_eq_map, List.map_cons, List.map_map, hhead,
      hmem]
    congr 1
    apply List.map_congr_left
    intro k _
    simp [hslot]

/-! ## Debounce -/

/-- All Debounce can do (41_switch_scanner.md R71). -/
theorem debounce_cases (i : Cell) (v : Bool) (s : State) :
    (v ≠ readCell s.last i ∧ debounce i v s = noteChange i v s) ∨
    (v = readCell s.last i ∧ readCount s.cnt i < s.target ∧ debounce i v s = countStable i s) ∨
    (v = readCell s.last i ∧ s.target ≤ readCount s.cnt i ∧ readCell s.conf i ≠ v ∧
      debounce i v s = acceptTransition i v s) ∨
    (v = readCell s.last i ∧ s.target ≤ readCount s.cnt i ∧ readCell s.conf i = v ∧
      debounce i v s = s) := by
  unfold debounce
  by_cases h1 : v ≠ readCell s.last i
  · exact .inl ⟨h1, if_pos h1⟩
  · have e := not_not.mp h1
    rw [if_neg h1]
    by_cases h2 : readCount s.cnt i < s.target
    · exact .inr (.inl ⟨e, h2, if_pos h2⟩)
    · rw [if_neg h2]
      by_cases h3 : readCell s.conf i ≠ v
      · exact .inr (.inr (.inl ⟨e, Nat.le_of_not_lt h2, h3, if_pos h3⟩))
      · exact .inr (.inr (.inr ⟨e, Nat.le_of_not_lt h2, not_not.mp h3, if_neg h3⟩))

/-- What every FifoWrite leaves as it was. -/
theorem fifoWrite_frame (F : Channel) (v : Cell) (s : State) :
    fifoWrite F v s =
      { s with
        press := (fifoWrite F v s).press
        release := (fifoWrite F v s).release
        errPressFull := (fifoWrite F v s).errPressFull
        errReleaseFull := (fifoWrite F v s).errReleaseFull } := by
  rcases fifoWrite_cases F v s with ⟨_, h⟩ | ⟨_, h⟩ <;> rw [h] <;> cases F <;> rfl

/-- What Debounce leaves as it was: everything but the switch grids, the FIFOs and their flags. -/
theorem debounce_frame (i : Cell) (v : Bool) (s : State) :
    debounce i v s =
      { s with
        last := (debounce i v s).last
        cnt := (debounce i v s).cnt
        conf := (debounce i v s).conf
        press := (debounce i v s).press
        release := (debounce i v s).release
        errPressFull := (debounce i v s).errPressFull
        errReleaseFull := (debounce i v s).errReleaseFull } := by
  rcases debounce_cases i v s with ⟨_, h⟩ | ⟨_, _, h⟩ | ⟨_, _, _, h⟩ | ⟨_, _, _, h⟩
  · rw [h]; rfl
  · rw [h]; rfl
  · rw [h, acceptTransition, fifoWrite_frame]
  · rw [h]

@[simp] theorem fifoWrite_params (F : Channel) (v : Cell) (s : State) :
    (fifoWrite F v s).params = s.params := by rw [fifoWrite_frame]; rfl

/-- Debounce keeps the build's parameters. -/
@[simp] theorem debounce_params (i : Cell) (v : Bool) (s : State) :
    (debounce i v s).params = s.params := by
  rcases debounce_cases i v s with ⟨_, h⟩ | ⟨_, _, h⟩ | ⟨_, _, _, h⟩ | ⟨_, _, _, h⟩
  · rw [h, noteChange_params]
  · rw [h, countStable_params]
  · rw [h, acceptTransition, fifoWrite_params]; rfl
  · rw [h]

/-- `scanRow` is Debounce of the four columns in ascending order (41_switch_scanner.md R74). -/
theorem scanRow_eq (r : Fin 3) (cols : Nibble) (s : State) :
    scanRow r cols s =
      debounce (cellAt r 3) (cols.getLsbD 3) (debounce (cellAt r 2) (cols.getLsbD 2)
        (debounce (cellAt r 1) (cols.getLsbD 1) (debounce (cellAt r 0) (cols.getLsbD 0) s))) := rfl

end Sys2Proof.Machine
end

