-- ==== Sys2Proof/Laws/PerInstr.lean ====
section
/-!
SUPPORT. Laws/PerInstr.lean: facts made for every operation, one lemma per constructor.
-/

namespace Sys2Proof.Laws.EncodePins

/-- The pins that present an operation assert no reset, and assert exactly one of the three requests:
the command port for an operation that has a word, one strobe for one that has none
(30_encoding.md R57). -/
def Statement (i : Instr) : Prop :=
  (encode i).rst = false ∧
    [(encode i).cmdValid, (encode i).swTick, (encode i).ledTick].count true = 1 ∧
      (encode i).cmdValid = (encodeWord i).isSome

theorem nop : Statement .nop := ⟨rfl, rfl, rfl⟩

theorem setLevel (idx level : Nat) : Statement (.setLevel idx level) := ⟨rfl, rfl, rfl⟩

theorem getLevel (idx : Nat) : Statement (.getLevel idx) := ⟨rfl, rfl, rfl⟩

theorem getSwitch (idx : Nat) : Statement (.getSwitch idx) := ⟨rfl, rfl, rfl⟩

theorem readPress : Statement .readPress := ⟨rfl, rfl, rfl⟩

theorem readRelease : Statement .readRelease := ⟨rfl, rfl, rfl⟩

theorem getStatus : Statement .getStatus := ⟨rfl, rfl, rfl⟩

theorem clearErr (mask : BitVec 2) : Statement (.clearErr mask) := ⟨rfl, rfl, rfl⟩

theorem ledTick : Statement .ledTick := ⟨rfl, rfl, rfl⟩

theorem swTick (cols : Nibble) : Statement (.swTick cols) := ⟨rfl, rfl, rfl⟩

end Sys2Proof.Laws.EncodePins
end

