-- ==== Sys2Proof/Laws/Step.lean ====
section
/-!
SUPPORT. Laws/Step.lean: what an operation and a cycle can do, once, for later proofs to cite.
-/

namespace Sys2Proof.Machine

open Host (Outcome)

/-! ## Each arm of `exec` as a next state -/

/-- A SET_LEVEL that completes with OK as a state. -/
theorem exec_setLevel_ok (i : Cell) (level : Nat) (s : State) (h : level ≤ s.levelMax) :
    exec (.setLevel i.val level) s =
      .next (respond .ok 0 { s with lvl := writeLevel s.lvl i level }) := by
  have : ¬ s.levelMax < level := Nat.not_lt.mpr h
  simp only [exec, execSetLevel, cellOfIdx_val, if_neg this]

theorem exec_setLevel_badValue (i : Cell) (level : Nat) (s : State) (h : s.levelMax < level) :
    exec (.setLevel i.val level) s = .next (fail .badValue s) := by
  simp only [exec, execSetLevel, cellOfIdx_val, if_pos h]

theorem exec_setLevel_badIndex (idx level : Nat) (s : State) (h : 12 ≤ idx) :
    exec (.setLevel idx level) s = .next (fail .badIndex s) := by
  simp only [exec, execSetLevel, cellOfIdx_none idx h]

theorem exec_getLevel (i : Cell) (s : State) :
    exec (.getLevel i.val) s = .next (respond .ok (zext 12 (levelCell s.lvl i)) s) := by
  simp only [exec, execGetLevel, cellOfIdx_val]

theorem exec_getLevel_badIndex (idx : Nat) (s : State) (h : 12 ≤ idx) :
    exec (.getLevel idx) s = .next (fail .badIndex s) := by
  simp only [exec, execGetLevel, cellOfIdx_none idx h]

theorem exec_getSwitch (i : Cell) (s : State) :
    exec (.getSwitch i.val) s =
      .next (respond .ok (zext 12 (BitVec.ofBool (readCell s.conf i))) s) := by
  simp only [exec, execGetSwitch, cellOfIdx_val]

theorem exec_getSwitch_badIndex (idx : Nat) (s : State) (h : 12 ≤ idx) :
    exec (.getSwitch idx) s = .next (fail .badIndex s) := by
  simp only [exec, execGetSwitch, cellOfIdx_none idx h]

/-- An IDX operand names a cell or is 12 or more. -/
theorem idx_cases (idx : Nat) : (∃ i : Cell, idx = i.val) ∨ 12 ≤ idx := by
  rcases Nat.lt_or_ge idx 12 with h | h
  · exact .inl ⟨⟨idx, h⟩, rfl⟩
  · exact .inr h

/-- SW_TICK changes nothing but the switch grids, the FIFOs, their flags and the row cursor. -/
theorem swTick_frame (cols : Nibble) (s : State) :
    swTick cols s =
      { s with
        last := (swTick cols s).last
        cnt := (swTick cols s).cnt
        conf := (swTick cols s).conf
        press := (swTick cols s).press
        release := (swTick cols s).release
        errPressFull := (swTick cols s).errPressFull
        errReleaseFull := (swTick cols s).errReleaseFull
        swRowIx := nextRow s.swRowIx } := by
  have h : ∀ (i : Cell) (v : Bool) (t : State),
      (debounce i v t).lvl = t.lvl ∧
      (debounce i v t).ledColIx = t.ledColIx ∧ (debounce i v t).subFrameIx = t.subFrameIx ∧
      (debounce i v t).ledColEn = t.ledColEn ∧ (debounce i v t).ledRowOn = t.ledRowOn ∧
      (debounce i v t).rspValid = t.rspValid ∧ (debounce i v t).rsp = t.rsp ∧
      (debounce i v t).inputs = t.inputs := by
    intro i v t
    rw [debounce_frame]
    exact ⟨rfl, rfl, rfl, rfl, rfl, rfl, rfl, rfl⟩
  have e : ∀ t u : State, t.lvl = u.lvl → t.ledColIx = u.ledColIx →
      t.subFrameIx = u.subFrameIx → t.ledColEn = u.ledColEn → t.ledRowOn = u.ledRowOn →
      t.rspValid = u.rspValid → t.rsp = u.rsp → t.inputs = u.inputs →
      ∀ r, { t with swRowIx := r } =
        { u with last := t.last, cnt := t.cnt, conf := t.conf, press := t.press,
                 release := t.release, errPressFull := t.errPressFull,
                 errReleaseFull := t.errReleaseFull, swRowIx := r } := by
    intro t u h1 h2 h3 h4 h5 h6 h7 h8 r
    cases t; cases u; simp_all
  apply e <;> rw [scanRow_eq] <;> simp [h]

/-- SW_TICK keeps the build's parameters, and with them the width of every counter. -/
@[simp] theorem swTick_params (cols : Nibble) (s : State) : (swTick cols s).params = s.params := by
  show (scanRow s.swRowIx cols s).params = s.params
  simp only [scanRow_eq, debounce_params]

/-- Every operation answers a next state: the block has no fault and no refusal
(60_exceptions.md R107). -/
theorem exec_next (i : Instr) (s : State) : ∃ t, exec i s = .next t := by
  cases i with
  | setLevel idx level =>
    rcases idx_cases idx with ⟨i, rfl⟩ | h
    · rcases Nat.lt_or_ge s.levelMax level with hl | hl
      · exact ⟨_, exec_setLevel_badValue i level s hl⟩
      · exact ⟨_, exec_setLevel_ok i level s hl⟩
    · exact ⟨_, exec_setLevel_badIndex idx level s h⟩
  | getLevel idx =>
    rcases idx_cases idx with ⟨i, rfl⟩ | h
    · exact ⟨_, exec_getLevel i s⟩
    · exact ⟨_, exec_getLevel_badIndex idx s h⟩
  | getSwitch idx =>
    rcases idx_cases idx with ⟨i, rfl⟩ | h
    · exact ⟨_, exec_getSwitch i s⟩
    · exact ⟨_, exec_getSwitch_badIndex idx s h⟩
  | _ => exact ⟨_, rfl⟩

/-! ## A cycle -/

@[simp] theorem andThen_next (s : State) (f : State → Outcome State Fault Refusal) :
    andThen (.next s) f = f s := rfl

theorem runOperation_next (op : Except DecodeError Instr) (s : State) :
    ∃ t, runOperation op s = .next t := by
  cases op with
  | ok i => exact exec_next i s
  | error e => exact ⟨_, rfl⟩

/-- A cycle without reset is its operations in order, on the state whose port is idle. -/
theorem runCycle_of_not_rst (p : PinsIn) (s : State) (h : p.rst = false) :
    runCycle p s = runOperations (operations p) (portIdle s) := by simp [runCycle, h]

theorem runCycle_of_rst (p : PinsIn) (s : State) (h : p.rst = true) :
    runCycle p s = .next (applyReset s) := by simp [runCycle, h]

/-- Running operations in two parts. -/
theorem runOperations_append (a b : List (Except DecodeError Instr)) (s t : State)
    (h : runOperations a s = .next t) : runOperations (a ++ b) s = runOperations b t := by
  induction a generalizing s with
  | nil => cases h; rfl
  | cons op a ih =>
    obtain ⟨u, hu⟩ := runOperation_next op s
    simp only [List.cons_append, runOperations, hu, andThen_next] at h ⊢
    exact ih u h

/-- A step whose next input is `p` is the cycle of `p`. -/
theorem step_of_inputs (s : State) (p : PinsIn) (rest : List PinsIn) (h : s.inputs = p :: rest) :
    step s = runCycle p { s with inputs := rest } := by
  simp only [step, currentPins, popInput, h, List.headD_cons, List.tail_cons]

end Sys2Proof.Machine
end

