-- ==== Sys2Proof/Tests/Slice0.lean ====
section
/-!
SUPPORT. Tests/Slice0.lean: tests of the model on the vectors of 95_test_vectors.md (the name of the vector
stands beside each), the smoke test of WellFormed, the decoding of words written out from
30_encoding.md R51, and for every obligation with hypotheses a witness that meets them.
-/

namespace Sys2Proof.Tests

open Sys2Proof.Machine Sys2Proof.Config

/-! ## WellFormed: an operand that does not fit its field is refused -/

theorem test_wellFormed_setLevel_idx : (Instr.setLevel 16 0).wellFormed = false := by decide
theorem test_wellFormed_setLevel_level : (Instr.setLevel 0 16).wellFormed = false := by decide
theorem test_wellFormed_getLevel_idx : (Instr.getLevel 16).wellFormed = false := by decide
theorem test_wellFormed_getSwitch_idx : (Instr.getSwitch 16).wellFormed = false := by decide
theorem test_wellFormed_fits : (Instr.setLevel 15 15).wellFormed = true := by decide

/-! ## Decoding: words written out from the patterns of R51, and the strobes of R57 -/

theorem test_decode_nop : decode 0b0000_0000_0000_0000 = .ok .nop := by decide
theorem test_decode_setLevel : decode 0b0001_0000_0110_0101 = .ok (.setLevel 6 5) := by decide
theorem test_decode_getLevel : decode 0b0010_0000_1011_0000 = .ok (.getLevel 11) := by decide
theorem test_decode_getSwitch : decode 0b0011_0000_1111_0000 = .ok (.getSwitch 15) := by decide
theorem test_decode_readPress : decode 0b0100_0000_0000_0000 = .ok .readPress := by decide
theorem test_decode_readRelease : decode 0b0101_0000_0000_0000 = .ok .readRelease := by decide
theorem test_decode_getStatus : decode 0b0110_0000_0000_0000 = .ok .getStatus := by decide
theorem test_decode_clearErr : decode 0b0111_0000_0000_0010 = .ok (.clearErr 0b10) := by decide

theorem test_decode_ledTick :
    operations { rst := false, ledTick := true, swTick := false, swColIn := 0b0110,
                 cmdValid := false, cmd := 0x4000 } = [.ok .ledTick] := by decide

theorem test_decode_swTick :
    operations { rst := false, ledTick := false, swTick := true, swColIn := 0b0110,
                 cmdValid := false, cmd := 0x4000 } = [.ok (.swTick 0b0110)] := by decide

/-- The ILLEGAL words of R52 and of 60_exceptions.md R105. -/
theorem test_decode_illegal :
    decode 0x0010 = .error .reservedOperand ∧ decode 0x2001 = .error .reservedOperand ∧
    decode 0x1100 = .error .reservedRsv ∧ decode 0x7004 = .error .reservedOperand ∧
    decode 0x80C9 = .error .reservedOpcode ∧ decode 0x1C09 = .error .reservedRsv := by decide

theorem test_decodeTableWord :
    decodeTableWord 16 0x1065 = some (.setLevel 6 5) ∧ decodeTableWord 16 0x8000 = none ∧
    decodeTableWord 0 0 = none := by decide

/-- 20_memory.md R35: the low byte of 0x1065 comes first. -/
theorem test_decodeBytes :
    decodeBytes [0x65, 0x10, 0x00] = some (.ok (.setLevel 6 5), [0x00]) ∧
      decodeBytes [0x65] = none := by decide

/-! ## One step, on the vectors of 95_test_vectors.md -/

/-- The state after a cycle with the ports at `p`. -/
def after (p : PinsIn) (s : State) : Option State :=
  match step (presentPins p s) with
  | .next t => some t
  | .fault _ => none
  | .refused _ => none

/-- The state after a cycle with one command. -/
def afterWord (w : Word) (s : State) : Option State := after (presentCommand w) s

/-- A FIFO with the given slots from slot 0 on, the others 9. -/
def fifoOf (slots : List Byte) (head tail : Cell) (count : Nibble) : Fifo :=
  { mem := Vector.ofFn fun i => slots.getD i.val 9, head := head, tail := tail, count := count }

/-- Levels of a build: the listed cells at the listed values, the others 0. -/
def levelsOf (w : LevelW) (vs : List (Cell × Nat)) : LevelGrid :=
  { width := w, cells := Vector.ofFn fun i => BitVec.ofNat w.bits ((vs.lookup i).getD 0) }

/-- Debounce counters of a build with DEBOUNCE_TARGET = `T`, listed in the same way. -/
def countsOf (T : Nat) (vs : List (Cell × Nat)) : CountGrid :=
  { target := T, cells := Vector.ofFn fun i => BitVec.ofNat (cntWidth T) ((vs.lookup i).getD 0) }

/-- A state in which cell 0 is about to confirm a press. -/
def pressPending : State := { State.reset with last := State.reset.last.set 0 false,
                                               cnt := countsOf 2 [(0, 2)] }

/-- A build with LEVEL_W = 4. -/
def wide : State := { State.reset with lvl := levelsOf .four [] }

/-- C-1. -/
theorem test_nop :
    afterWord 0x0000 State.reset = some { State.reset with rspValid := true } := by decide

/-- C-4, with the frame: no other field changes. -/
theorem test_setLevel :
    afterWord 0x1065 State.reset =
      some { State.reset with lvl := levelsOf .three [(6, 5)], rspValid := true } := by decide

/-- C-9, C-11. -/
theorem test_setLevel_fails :
    afterWord 0x1008 State.reset = some { State.reset with rspValid := true, rsp := 0x4000 } ∧
    afterWord 0x10C9 State.reset = some { State.reset with rspValid := true, rsp := 0x3000 } := by
  decide

/-- C-14, C-16. -/
theorem test_getLevel :
    (afterWord 0x2060 { State.reset with lvl := levelsOf .three [(6, 5)] }).map (·.rsp) =
      some 0x0005 ∧
    (afterWord 0x20C0 State.reset).map (·.rsp) = some 0x3000 := by decide

/-- C-19, C-20, C-21. -/
theorem test_getSwitch :
    (afterWord 0x3000 State.reset).map (·.rsp) = some 0x0001 ∧
    (afterWord 0x3000 { State.reset with conf := State.reset.conf.set 0 false }).map (·.rsp) =
      some 0x0000 ∧
    (afterWord 0x30F0 State.reset).map (·.rsp) = some 0x3000 := by decide

/-- C-25: PRESS `[11, 2]` `(4, 6, 2)`. -/
theorem test_readPress :
    (afterWord 0x4000 { State.reset with press := fifoOf [0, 0, 0, 0, 11, 2] 4 6 2 }).map
      (fun t => (t.rsp, t.press, t.release)) =
        some (0x000B, fifoOf [0, 0, 0, 0, 11, 2] 5 6 1, Fifo.reset) := by decide

/-- FF-8 and C-23: the head of a full FIFO with its flag set; an empty FIFO. -/
theorem test_readPress_edges :
    (afterWord 0x4000 { State.reset with press := fifoOf [9, 9, 6] 2 2 12, errPressFull := true }).map
      (fun t => (t.rsp, t.press, t.errPressFull)) =
        some (0x0006, fifoOf [9, 9, 6] 3 2 11, true) ∧
    (afterWord 0x4000 State.reset).map (·.rsp) = some 0x1000 := by decide

/-- C-28: RELEASE `[0, 7]` `(0, 2, 2)`; C-27. -/
theorem test_readRelease :
    (afterWord 0x5000 { State.reset with release := fifoOf [0, 7] 0 2 2 }).map
      (fun t => (t.rsp, t.release, t.press)) =
        some (0x0000, fifoOf [0, 7] 1 2 1, Fifo.reset) ∧
    (afterWord 0x5000 State.reset).map (·.rsp) = some 0x1000 := by decide

/-- C-30, C-31. -/
theorem test_getStatus :
    (afterWord 0x6000 { State.reset with press := fifoOf [] 0 3 3, release := fifoOf [] 0 0 12,
                                         errReleaseFull := true }).map (·.rsp) = some 0x02C3 ∧
    (afterWord 0x6000 { State.reset with press := fifoOf [] 0 0 12, release := fifoOf [] 0 0 12,
                                         errPressFull := true }).map (·.rsp) = some 0x01CC := by
  decide

/-- C-33 to C-36. -/
theorem test_clearErr :
    ([0x7000, 0x7001, 0x7002, 0x7003] : List Word).map (fun w =>
      (afterWord w { State.reset with errPressFull := true, errReleaseFull := true }).map
        fun t => (t.errPressFull, t.errReleaseFull, t.rsp)) =
      [some (true, true, 0x0000), some (false, true, 0x0000), some (true, false, 0x0000),
        some (false, false, 0x0000)] := by decide

/-- C-37. -/
theorem test_clearErr_illegal :
    (afterWord 0x7004 { State.reset with errPressFull := true, errReleaseFull := true }).map
      (fun t => (t.errPressFull, t.errReleaseFull, t.rsp)) = some (true, true, 0x2000) := by decide

/-- LED-2: the example of 42_led_multiplexer.md R81. -/
theorem test_ledTick :
    (after presentLedTick { State.reset with ledColIx := 1, subFrameIx := 2,
                                             lvl := levelsOf .three [(1, 3), (5, 2), (9, 7)] }).map
      (fun t => (t.ledRowOn, t.ledColEn, t.ledCol, t.subFrame)) =
        some (0b101, 0b0010, 3, 3) := by decide

/-- LED-3: both cursors wrap. -/
theorem test_ledTick_wrap :
    (after presentLedTick { State.reset with ledColIx := 3, subFrameIx := 7,
                                             lvl := levelsOf .three [(3, 7), (11, 7)] }).map
      (fun t => (t.ledRowOn, t.ledColEn, t.ledCol, t.subFrame)) =
        some (0b000, 0b1000, 1, 1) := by decide

/-- SW-4: four events of one tick, in ascending order. -/
theorem test_swTick_four :
    (after (presentSwTick 0b0000)
        { State.reset with swRowIx := 1
                           last := Vector.replicate 12 false
                           cnt := countsOf 2 ((List.finRange 12).map (·, 2)) }).map
      (fun t => (t.press.entries, t.press.tail, (t.conf.toList.drop 3).take 6, t.swRow)) =
        some ([4, 5, 6, 7], 4, [true, false, false, false, false, true], 3) := by decide

/-- SW-6: a push that finds its FIFO full, and the tick that goes on. -/
theorem test_swTick_full :
    (after (presentSwTick 0b1110)
        { State.reset with last := State.reset.last.set 0 false
                           cnt := countsOf 2 [(0, 2), (1, 2)]
                           conf := State.reset.conf.set 1 false
                           press := fifoOf [] 3 3 12 }).map
      (fun t => ((t.press, t.errPressFull, t.conf), t.release.entries, t.release.tail, t.swRow)) =
        some ((fifoOf [] 3 3 12, true, State.reset.conf.set 0 false), [1], 1, 2) := by decide

/-- FF-2, FF-3, FF-4: the tail wraps, the last free slot, a full FIFO. -/
theorem test_fifoWrite :
    (fifoWrite .press 3 { State.reset with press := fifoOf [] 5 11 6 }).press =
      { fifoOf [] 5 0 7 with mem := (fifoOf [] 5 0 7).mem.set 11 3 } ∧
    (fifoWrite .press 4 { State.reset with press := fifoOf [] 2 1 11 }).press =
      fifoOf [9, 4] 2 2 12 ∧
    fifoWrite .press 5 { State.reset with press := fifoOf [] 2 2 12 } =
      { State.reset with press := fifoOf [] 2 2 12, errPressFull := true } := by decide

/-- ORD-2: the clear runs before the push that sets the flag again. -/
theorem test_cycle_clear_then_push :
    (after { presentCommand 0x7001 with swTick := true, swColIn := 0b1110 }
        { pressPending with press := fifoOf [] 0 0 12, errPressFull := true }).map
      (fun t => (t.errPressFull, t.press, readCell t.conf 0, t.rsp)) =
        some (true, fifoOf [] 0 0 12, false, 0x0000) := by decide

/-- ORD-3: the read frees a slot for the push. -/
theorem test_cycle_read_then_push :
    (after { presentCommand 0x4000 with swTick := true, swColIn := 0b1110 }
        { pressPending with press := fifoOf [] 4 4 12 }).map
      (fun t => (t.rsp, t.press, t.errPressFull)) =
        some (0x0009, fifoOf [9, 9, 9, 9, 0] 5 5 12, false) := by decide

/-- LED-9: the tick sees the level the command of its cycle wrote. -/
theorem test_cycle_set_then_tick :
    (after { presentCommand 0x1007 with ledTick := true } State.reset).map
      (fun t => (t.ledRowOn, t.ledColEn, t.rsp, t.rspValid)) =
        some (0b001, 0b0001, 0x0000, true) := by decide

/-- ORD-6: a cycle with no command ends the response and holds the word. -/
theorem test_cycle_no_command :
    (after presentLedTick { State.reset with rspValid := true, rsp := 0x1000 }).map
      (fun t => (t.rspValid, t.rsp, t.ledCol)) = some (false, 0x1000, 2) := by decide

/-- ORD-7: reset wins. -/
theorem test_cycle_reset :
    after { rst := true, ledTick := true, swTick := true, swColIn := 0, cmdValid := true,
            cmd := 0x6000 } { pressPending with press := fifoOf [] 4 4 12, errPressFull := true } =
      some State.reset := by decide

/-- A table row's word placed by `withFetchWord` is what the next step runs. -/
theorem test_withFetchWord :
    step (State.reset.withFetchWord 16 0x1065) = exec (.setLevel 6 5) State.reset := rfl

/-- 00_scope.md R8, R9: what LEVEL_W and CNT_W are at the defaults and at the edges of a width. -/
theorem test_widths :
    Params.default.levelMax = 7 ∧ wide.levelMax = 15 ∧
      [0, 1, 2, 3, 4, 7, 8].map cntWidth = [1, 1, 2, 2, 3, 3, 4] := by decide

/-! ## The assembler (30_encoding.md R59, R60) -/

theorem test_assemble_line :
    assembleText Params.default "SET_LEVEL r1c2, 5 | @LED_TICK" =
      some [{ presentCommand 0x1065 with ledTick := true }] := by decide

theorem test_assemble_forms :
    assembleText Params.default
        "CLEAR_ALL_ERR\nGET_LEVEL 0xB\n@SW_TICK 0b1110\n.word 0xF123\n@RESET" =
      some [presentCommand 0x7003, presentCommand 0x20B0, presentSwTick 0b1110,
        presentCommand 0xF123, { PinsIn.idle with rst := true }] := by decide

/-- The note under 2.3 of 95_test_vectors.md; an operand a command does not take. -/
theorem test_assemble_refuses :
    assembleText Params.default "SET_LEVEL 0, 8" = none ∧
    assembleText Params.default "NOP 1" = none ∧
    assembleText Params.default "GET_LEVEL 16" = none := by decide

/-! ## Witnesses: what meets the hypotheses of each obligation -/

/-- Pins that assert reset and nothing else. -/
def resetPins : PinsIn := { PinsIn.idle with rst := true }

/-- PRESS `[11, 2]` `(4, 6, 2)`. -/
def twoPresses : State := { State.reset with press := fifoOf [0, 0, 0, 0, 11, 2] 4 6 2 }

theorem reset_fifo_ok (F : Channel) : (State.reset.fifo F).Ok := by
  cases F <;> exact ⟨by decide, by decide, by decide⟩

theorem full_fifo_ok : (fifoOf [] 4 4 12).Ok := ⟨by decide, by decide, by decide⟩

theorem reset_inv : Invariant State.reset :=
  ⟨reset_fifo_ok, by decide, by decide, by decide, by decide⟩

theorem witness_ResetCycleAcceptsNothingElse :
    let s : State := { twoPresses with inputs := [resetPins, resetPins] }
    s.inputs = resetPins :: [resetPins] ∧ resetPins.rst = true := by decide

theorem witness_StepRunsThePresentedOperation :
    let p := presentCommand 0x10FF
    let q := presentSwTick 0b1111
    let r := presentLedTick
    (p.rst = false ∧ p.cmdValid = true ∧ p.swTick = false ∧ p.ledTick = false ∧
      decode p.cmd = .ok (.setLevel 15 15)) ∧
    (q.rst = false ∧ q.cmdValid = false ∧ q.swTick = true ∧ q.ledTick = false) ∧
    (r.rst = false ∧ r.cmdValid = false ∧ r.swTick = false ∧ r.ledTick = true) := by decide

theorem witness_EncodedOperationIsTheOneRun : (Instr.setLevel 15 15).wellFormed = true := by decide

/-- A cycle with all three operations, one with a word that spells no command, one with none, one with
reset. -/
theorem witness_CycleRunsCommandThenSwTickThenLedTick :
    let all : PinsIn := { presentCommand 0x6000 with swTick := true, ledTick := true }
    let s : State := { State.reset with inputs := [all, presentCommand 0x8000] }
    (s.inputs = all :: [presentCommand 0x8000] ∧ all.rst = false ∧ all.cmdValid = true ∧
      decode all.cmd = .ok .getStatus ∧ all.swTick = true ∧ all.ledTick = true) ∧
    decode (presentCommand 0x8000).cmd = .error .reservedOpcode ∧
    (PinsIn.idle.cmdValid = false ∧ PinsIn.idle.swTick = false ∧ PinsIn.idle.ledTick = false) ∧
    resetPins.rst = true := by decide

/-- A state in which cell 0 is about to confirm a release. -/
def releasePending : State := { State.reset with cnt := countsOf 2 [(0, 2)],
                                                 conf := State.reset.conf.set 0 false }

/-- ORD-1, ORD-3, LED-9, ORD-2, ORD-4: for each clause a cycle and a state that meet its hypotheses. -/
theorem witness_SameCycleConsequences :
    let full : State := { pressPending with press := fifoOf [] 4 4 12 }
    (∀ F, (pressPending.fifo F).Ok) ∧ (∀ F, (full.fifo F).Ok) ∧
    pressPending.press.count = 0 ∧ full.press.count = 12 ∧
    (confirmedEvents full 0b1110 false).length ≤ 1 ∧ confirmedEvents full 0b1110 false ≠ [] ∧
    decode 0x4000 = .ok .readPress ∧ decode 0x1007 = .ok (.setLevel (0 : Cell).val 7) ∧
    7 ≤ full.levelMax ∧ decode 0x7001 = .ok (.clearErr 1) ∧ decode 0x6000 = .ok .getStatus :=
  ⟨fun F => by cases F <;> exact ⟨by decide, by decide, by decide⟩,
    fun F => by cases F with
      | press => exact full_fifo_ok
      | release => exact reset_fifo_ok .release,
    by decide, by decide, by decide, by decide, by decide, by decide, by decide, by decide, by decide⟩

/-- The same for the clauses on RELEASE. -/
theorem witness_SameCycleConsequences_release :
    let full : State := { releasePending with release := fifoOf [] 4 4 12 }
    (∀ F, (releasePending.fifo F).Ok) ∧ (∀ F, (full.fifo F).Ok) ∧
    (releasePending.fifo .release).count = 0 ∧ (full.fifo .release).count = 12 ∧
    (confirmedEvents full 0b1111 true).length ≤ 1 ∧ confirmedEvents full 0b1111 true ≠ [] ∧
    decode 0x5000 = .ok .readRelease ∧ decode 0x7002 = .ok (.clearErr 2) :=
  ⟨fun F => by cases F <;> exact ⟨by decide, by decide, by decide⟩,
    fun F => by cases F with
      | press => exact reset_fifo_ok .press
      | release => exact full_fifo_ok,
    by decide, by decide, by decide, by decide, by decide, by decide⟩

theorem witness_IdleCycleOnlyEndsTheResponse :
    PinsIn.idle.rst = false ∧ PinsIn.idle.cmdValid = false ∧ PinsIn.idle.swTick = false ∧
      PinsIn.idle.ledTick = false ∧ State.reset.inputs = [] := by decide

theorem witness_ResponseRegisterAfterEveryCycle :
    (∃ t, runCycle resetPins twoPresses = .next t) ∧
    (∃ t, runCycle (presentCommand 0x4000) twoPresses = .next t) ∧
    ∃ t, runCycle presentLedTick twoPresses = .next t := ⟨⟨_, rfl⟩, ⟨_, rfl⟩, ⟨_, rfl⟩⟩

theorem witness_DecodeOfEncodeIsTheInstruction :
    (Instr.setLevel 15 15).wellFormed = true ∧ (Instr.swTick 0b1111).wellFormed = true := by decide

theorem witness_EncodeOfDecodeIsTheWord : decode 0x10FF = .ok (.setLevel 15 15) := by decide

theorem witness_NopOnlyResponds : (15 : Nibble) ≠ 0 ∨ (0 : Nibble) ≠ 0 := by decide

theorem witness_SetLevelWritesOneCell :
    12 ≤ 12 ∧ State.reset.levelMax < 8 ∧ 7 ≤ State.reset.levelMax ∧ 15 ≤ wide.levelMax := by decide

theorem witness_GetLevelRespondsWithTheLevel : (1 : Nibble) ≠ 0 ∧ 12 ≤ 12 := by decide

theorem witness_GetSwitchRespondsWithTheConfirmedState : (5 : Nibble) ≠ 0 ∧ 12 ≤ 12 := by decide

theorem witness_ReadPressRemovesTheOldestPress :
    State.reset.press.count = 0 ∧ twoPresses.press.count ≠ 0 := by decide

theorem witness_ReadReleaseRemovesTheOldestRelease :
    State.reset.release.count = 0 ∧
      ({ State.reset with release := fifoOf [0, 7] 11 1 2 } : State).release.count ≠ 0 := by decide

theorem witness_GetStatusRespondsWithCountsAndFlags : (0 : Nibble) ≠ 0 ∨ (1 : Nibble) ≠ 0 := by decide

theorem witness_ClearErrClearsTheSelectedFlags :
    (0 : Nibble) ≠ 0 ∨ (4 : Nibble).extractLsb' 2 2 ≠ 0 := by decide

/-- One word of each status at the edge of its range, and the build in which BAD_VALUE is never raised. -/
theorem witness_StatusOfEveryWord :
    (afterWord 0x8000 State.reset).map (·.rsp) = some 0x2000 ∧
    (afterWord 0x10C8 State.reset).map (·.rsp) = some 0x3000 ∧
    (afterWord 0x10B8 State.reset).map (·.rsp) = some 0x4000 ∧
    (afterWord 0x4000 State.reset).map (·.rsp) = some 0x1000 ∧
    (afterWord 0x10B7 State.reset).map (·.rsp) = some 0x0000 ∧
    wide.params.levelW = .four ∧ (afterWord 0x10BF wide).map (·.rsp) = some 0x0000 := by decide

theorem witness_WhichReadsHaveSideEffects :
    (twoPresses.fifo .press).Ok ∧ (twoPresses.fifo .press).entries = 11 :: [2] ∧
      (State.reset.fifo .release).Ok ∧ (State.reset.fifo .release).entries = [] :=
  ⟨⟨by decide, by decide, by decide⟩, by decide, reset_fifo_ok .release, by decide⟩

theorem witness_LedTickAfterNTicksFromReset : (11 : Cell).val = (2 : Fin 3).val * 4 + 31 % 4 := by
  decide

theorem witness_LedOutputsHoldBetweenTicks :
    (∃ t, runCycle (presentCommand 0x1007) State.reset = .next t) ∧
      (presentCommand 0x1007).rst = false ∧ (presentCommand 0x1007).ledTick = false ∧
      HoldsResetValues State.reset :=
  ⟨⟨_, rfl⟩, rfl, rfl,
    ⟨by decide, by decide, by decide, by decide, fun F => by cases F <;> decide, rfl, rfl, rfl, rfl,
      rfl, fun F => by cases F <;> rfl, rfl, rfl⟩⟩

/-- The three branches of Debounce and a cell of another row: a change, a count below the target, a count
at the target. -/
theorem witness_SwTickDebouncesTheScannedRow :
    let s : State := { pressPending with cnt := countsOf 2 [(0, 2), (1, 1)] }
    (1#4).getLsbD 1 ≠ readCell s.last (cellAt s.swRowIx 1) ∧
    ((2#4).getLsbD 1 = readCell s.last (cellAt s.swRowIx 1) ∧
      readCount s.cnt (cellAt s.swRowIx 1) < s.target) ∧
    ((2#4).getLsbD 0 = readCell s.last (cellAt s.swRowIx 0) ∧
      s.target ≤ readCount s.cnt (cellAt s.swRowIx 0)) ∧
    rowOf 4 ≠ s.swRowIx := by decide

theorem witness_SwTickPushesTheConfirmedTransitions :
    let s : State := { pressPending with press := fifoOf [] 4 4 12 }
    (∀ F, (s.fifo F).Ok) ∧ confirms s 0b1110 false 0 = true ∧
      12 < (s.fifo .press).entries.length + (confirmedEvents s 0b1110 false).length :=
  ⟨fun F => by cases F with
    | press => exact full_fifo_ok
    | release => exact reset_fifo_ok .release, by decide, by decide⟩

/-- A slot that a tick which fills slot 0 of an empty PRESS leaves alone. -/
theorem witness_SwTickPushes_other_slot :
    (∀ F, (pressPending.fifo F).Ok) ∧
      ∀ j, j < ((swTick 0b1110 pressPending).fifo .press).count.toNat -
          (pressPending.fifo .press).count.toNat →
        (1 : Cell).val ≠ ((pressPending.fifo .press).tail.val + j) % 12 :=
  ⟨fun F => by cases F <;> exact ⟨by decide, by decide, by decide⟩, by decide⟩

/-- A run of `T + 2` = 4 samples of 0, and one of three, at cell 0. -/
theorem witness_TransitionTakesTPlusTwoSamples :
    (let reads : List Nibble := [14, 15, 15, 14, 15, 15, 14, 15, 15, 14]
     reads.length = 3 * 3 + 1 ∧ State.reset.swRowIx = rowOf 0 ∧
      readCell State.reset.last 0 ≠ false ∧
      ∀ k : Fin 4, (reads.getD (3 * k.val) 0).getLsbD (colOf 0).val = false) ∧
    (let reads : List Nibble := [14, 15, 15, 14, 15, 15, 14]
     reads.length = 3 * 2 + 1 ∧
      ∀ k : Fin 3, (reads.getD (3 * k.val) 0).getLsbD (colOf 0).val = false) := by decide

/-- A run of the longest length, here with no sample of 0 in it. -/
theorem witness_EventRateIsBounded :
    (List.replicate 24 (15 : Nibble)).length ≤ 6 * (State.reset.target + 2) := by decide

theorem witness_ReleaseChannelNeverAffectsThePressPath :
    ∃ t, exec (.swTick 0b1110) pressPending = .next t := ⟨_, rfl⟩

theorem witness_FifoWriteAppendsOrRaises :
    (({ State.reset with press := fifoOf [] 4 4 12 } : State).fifo .press).count = 12 ∧
      (({ State.reset with press := fifoOf [] 4 3 11 } : State).fifo .press).count ≠ 12 := by decide

theorem witness_FifoReturnsWritesInOrder : (twoPresses.fifo .press).Ok :=
  ⟨by decide, by decide, by decide⟩

theorem witness_FifoCapacityIsTwelve :
    ((State.reset.fifo .release).Ok ∧ (State.reset.fifo .release).count = 0 ∧
      (List.replicate 12 (11 : Cell)).length = 12) ∧
    (({ State.reset with press := fifoOf [] 4 4 12 } : State).fifo .press).Ok ∧
      (({ State.reset with press := fifoOf [] 4 4 12 } : State).fifo .press).count = 12 :=
  ⟨⟨reset_fifo_ok .release, by decide, by decide⟩, full_fifo_ok, by decide⟩

theorem witness_EveryStepKeepsInv :
    ∃ s t, Invariant s ∧ step s = .next t :=
  ⟨{ State.reset with inputs := [presentSwTick 14] }, _,
    ⟨reset_fifo_ok, by decide, by decide, by decide, by decide⟩, rfl⟩

/-- For each clause of the obligation, a step in which its element changes. -/
theorem witness_EachElementHasOneWriter :
    (∃ t, exec (.setLevel 11 7) State.reset = .next t ∧ t.lvl ≠ State.reset.lvl ∧
      t.rspValid ≠ State.reset.rspValid) ∧
    (∃ t, exec (.swTick 0b1110) pressPending = .next t ∧ t.cnt ≠ pressPending.cnt ∧
      (t.fifo .press).mem = (pressPending.fifo .press).mem ∧
      (t.fifo .press).tail ≠ (pressPending.fifo .press).tail ∧
      t.press.count ≠ pressPending.press.count) ∧
    (∃ t, exec .readPress twoPresses = .next t ∧ t.press.head ≠ twoPresses.press.head) ∧
    (∃ t, exec .readRelease { State.reset with release := fifoOf [0, 7] 11 1 2 } = .next t ∧
      t.release.head ≠ 11 ∧ t.release.count ≠ 2) ∧
    (∃ t, exec .ledTick State.reset = .next t ∧ t.ledColEn ≠ State.reset.ledColEn) ∧
    (∃ t, exec (.swTick 0b1110) { pressPending with press := fifoOf [] 4 4 12 } = .next t ∧
      t.errFull .press = true) ∧
    ∃ t, exec (.clearErr 1) { State.reset with errPressFull := true } = .next t ∧
      t.errFull .press = false :=
  ⟨⟨_, rfl, by decide, by decide⟩, ⟨_, rfl, by decide, by decide, by decide, by decide⟩,
    ⟨_, rfl, by decide⟩, ⟨_, rfl, by decide, by decide⟩, ⟨_, rfl, by decide⟩, ⟨_, rfl, by decide⟩,
    ⟨_, rfl, by decide⟩⟩

theorem witness_ParametersNeverChange :
    ∃ t, step { State.reset with inputs := [resetPins] } = .next t := ⟨_, rfl⟩

/-- Two states that differ in a slot outside the occupied window. -/
theorem witness_FreeSlotsAreUnobservable :
    let u : State := { State.reset with press := fifoOf [] 0 0 0 }
    Invariant State.reset ∧ SameButFreeSlots State.reset u ∧ u ≠ State.reset ∧
      ∃ t, step State.reset = .next t :=
  ⟨reset_inv, ⟨⟨rfl, rfl, rfl, by decide⟩, ⟨rfl, rfl, rfl, rfl⟩, rfl⟩, by decide, ⟨_, rfl⟩⟩

theorem witness_CounterFitsInCntW :
    Invariant State.reset ∧ Invariant { State.reset with cnt := countsOf 2 [(0, 2), (11, 2)] } ∧
      0 < 2 ^ 1 ∧ 3 < 2 ^ 2 :=
  ⟨reset_inv, ⟨reset_fifo_ok, by decide, by decide, by decide, by decide⟩, by decide, by decide⟩

/-- The last tick of a refresh: `n` = 31, the cursors at column 4 and sub-frame 8. -/
theorem witness_EveryStepKeepsTheRefreshPhase :
    let s : State := { State.reset with ledColIx := 3, subFrameIx := 7, inputs := [presentLedTick] }
    s.ledCol = 31 % 4 + 1 ∧ s.subFrame = 31 / 4 % 8 + 1 ∧ (currentPins s).rst = false ∧
      (currentPins s).ledTick = true ∧ ∃ t, step s = .next t :=
  ⟨by decide, by decide, rfl, rfl, _, rfl⟩

theorem witness_ArrayReadAfterWrite :
    7 < 2 ^ State.reset.params.levelW.bits ∧ 15 < 2 ^ wide.params.levelW.bits ∧ 1 < 2 ^ 1 ∧
      3 < 2 ^ State.reset.params.cntW ∧ 255 < 2 ^ 8 ∧ (Space.pmem ≠ Space.rmem ∨ (3 : Cell) ≠ 3) := by
  decide

theorem witness_PseudoInstructionWords :
    Params.default.levelW = .three ∧ wide.params.levelW = .four := by decide

theorem witness_AssembledCommandsDecode :
    assembleCommand Params.default (.setLevel 15 7) = some 0x10F7 := by decide

end Sys2Proof.Tests
end

section
/-!
PROOFS. What every operation, every cycle and every step keeps of the build and of the inputs still to
come; the width of a debounce counter.
-/

namespace Sys2Proof.Machine

open Sys2Proof.Config

/-! ## The build and the inputs still to come, over the shared operations -/

@[simp] theorem swTick_inputs (cols : Nibble) (s : State) : (swTick cols s).inputs = s.inputs := by
  rw [swTick_frame]

@[simp] theorem fifoReadRespond_params (F : Channel) (s : State) :
    (fifoReadRespond F s).params = s.params := by
  rcases fifoReadRespond_cases F s with ⟨_, h⟩ | ⟨_, h⟩ <;> simp [h]

@[simp] theorem fifoReadRespond_inputs (F : Channel) (s : State) :
    (fifoReadRespond F s).inputs = s.inputs := by
  rcases fifoReadRespond_cases F s with ⟨_, h⟩ | ⟨_, h⟩ <;> simp [h]

@[simp] theorem clearFlag_params (selected : Bool) (F : Channel) (s : State) :
    (clearFlag selected F s).params = s.params := by
  cases selected <;> simp [clearFlag]

@[simp] theorem clearFlag_inputs (selected : Bool) (F : Channel) (s : State) :
    (clearFlag selected F s).inputs = s.inputs := by
  cases selected <;> simp [clearFlag]

/-! ## Properties that every operation keeps -/

/-- A property that every operation and the ILLEGAL response keep holds after the operations of a cycle
(20_memory.md R40). -/
theorem runOperations_keeps {P : State → Prop}
    (hexec : ∀ (i : Instr) (s t : State), exec i s = .next t → P s → P t)
    (hillegal : ∀ s : State, P s → P (fail .illegal s))
    (ops : List (Except DecodeError Instr)) (s t : State) (h : runOperations ops s = .next t)
    (hs : P s) : P t := by
  induction ops generalizing s with
  | nil => cases h; exact hs
  | cons op ops ih =>
    obtain ⟨u, hu⟩ := runOperation_next op s
    rw [runOperations, hu, andThen_next] at h
    refine ih u h ?_
    cases op with
    | ok i => exact hexec i s u hu hs
    | error e => cases hu; exact hillegal s hs

/-- A property that every operation and the ILLEGAL response keep holds after a step, if it holds of the
state the operations start from and of that state reset. -/
theorem step_keeps {P : State → Prop}
    (hexec : ∀ (i : Instr) (s t : State), exec i s = .next t → P s → P t)
    (hillegal : ∀ s : State, P s → P (fail .illegal s))
    (s t : State) (h : step s = .next t) (hreset : P (applyReset (popInput s)))
    (hstart : P (portIdle (popInput s))) : P t := by
  rw [step] at h
  cases hr : (currentPins s).rst with
  | true =>
    rw [runCycle_of_rst _ _ hr] at h
    cases h
    exact hreset
  | false =>
    rw [runCycle_of_not_rst _ _ hr] at h
    exact runOperations_keeps hexec hillegal _ _ t h hstart

/-! ## The build and the inputs, over a step -/

/-- The state is of the build with the parameters `p`, and `inputs` are still to come: what an operation
neither writes nor takes (00_scope.md R8, R9, log entry 1). -/
def OfBuild (p : Params) (inputs : List PinsIn) (s : State) : Prop :=
  s.params = p ∧ s.inputs = inputs

/-- Every operation answers a state of the same build, with the same inputs to come. -/
theorem exec_next_ofBuild (i : Instr) (s : State) :
    ∃ t, exec i s = .next t ∧ OfBuild s.params s.inputs t := by
  cases i with
  | setLevel idx level =>
    rcases idx_cases idx with ⟨i, rfl⟩ | hi
    · rcases Nat.lt_or_ge s.levelMax level with hl | hl
      · exact ⟨_, exec_setLevel_badValue i level s hl, rfl, rfl⟩
      · exact ⟨_, exec_setLevel_ok i level s hl, rfl, rfl⟩
    · exact ⟨_, exec_setLevel_badIndex idx level s hi, rfl, rfl⟩
  | getLevel idx =>
    rcases idx_cases idx with ⟨i, rfl⟩ | hi
    · exact ⟨_, exec_getLevel i s, rfl, rfl⟩
    · exact ⟨_, exec_getLevel_badIndex idx s hi, rfl, rfl⟩
  | getSwitch idx =>
    rcases idx_cases idx with ⟨i, rfl⟩ | hi
    · exact ⟨_, exec_getSwitch i s, rfl, rfl⟩
    · exact ⟨_, exec_getSwitch_badIndex idx s hi, rfl, rfl⟩
  | readPress => exact ⟨_, rfl, fifoReadRespond_params .press s, fifoReadRespond_inputs .press s⟩
  | readRelease => exact ⟨_, rfl, fifoReadRespond_params .release s, fifoReadRespond_inputs .release s⟩
  | clearErr mask => exact ⟨_, rfl, by simp, by simp⟩
  | swTick cols => exact ⟨_, rfl, swTick_params cols s, swTick_inputs cols s⟩
  | nop | getStatus | ledTick => exact ⟨_, rfl, rfl, rfl⟩

theorem exec_keeps_ofBuild (p : Params) (inputs : List PinsIn) (i : Instr) (s t : State)
    (h : exec i s = .next t) (hs : OfBuild p inputs s) : OfBuild p inputs t := by
  obtain ⟨rfl, rfl⟩ := hs
  obtain ⟨u, hu, hbuild⟩ := exec_next_ofBuild i s
  cases hu.symm.trans h
  exact hbuild

/-- A step keeps the parameters and takes the first input, at reset too (log entry 9). -/
theorem step_ofBuild (s t : State) (h : step s = .next t) : OfBuild s.params s.inputs.tail t :=
  step_keeps (exec_keeps_ofBuild s.params s.inputs.tail) (fun _ hu => hu) s t h ⟨rfl, rfl⟩ ⟨rfl, rfl⟩

/-- Settles O44: no operation writes the parameters or the inputs, and a reset keeps both. -/
theorem parametersNeverChange : Obligations.ParametersNeverChange :=
  ⟨step_ofBuild, rfl⟩

/-! ## The width of a debounce counter -/

/-- The number of binary digits of `T` is the ceiling of the binary logarithm of `T + 1`. -/
theorem clog_two_succ {T : Nat} (h : T ≠ 0) : Nat.clog 2 (T + 1) = Nat.log2 T + 1 := by
  apply Nat.le_antisymm
  · exact Nat.clog_le_of_le_pow Nat.lt_log2_self
  · have hlt : 2 ^ Nat.log2 T < T + 1 := Nat.lt_succ_of_le (Nat.log2_self_le h)
    exact (Nat.lt_clog_iff_pow_lt Nat.one_lt_two).mpr hlt

/-- CNT_W as 00_scope.md R8 writes it. -/
theorem cntWidth_eq_max_clog (T : Nat) : cntWidth T = max 1 (Nat.clog 2 (T + 1)) := by
  rw [cntWidth]
  split
  · subst_vars; simp
  · rw [clog_two_succ ‹_›]

/-- No smaller width of at least one bit holds `T`. -/
theorem cntWidth_le {T w : Nat} (hw : 1 ≤ w) (hT : T < 2 ^ w) : cntWidth T ≤ w := by
  rw [cntWidth_eq_max_clog]
  exact max_le hw (Nat.clog_le_of_le_pow hT)

/-- Settles O46: CNT_W is the formula of R8, whose minimality is that of the ceiling of the logarithm; a
counter is a bit vector of that width, and the invariant bounds it by the target. -/
theorem counterFitsInCntW : Obligations.CounterFitsInCntW := by
  refine ⟨fun p => ⟨cntWidth_eq_max_clog _, Nat.le_max_left _ _, lt_two_pow_cntWidth _,
    fun w hw hT => cntWidth_le hw hT⟩, by decide, fun s i => ⟨readCount_lt s.cnt i, ?_⟩⟩
  exact fun hinv => hinv.cnt_le i

end Sys2Proof.Machine
end

section
/-!
PROOFS. What a command does besides responding, and the invariant of every reachable state (10_state.md R17,
R19, R22, R26, 60_exceptions.md R99).
-/

namespace Sys2Proof.Machine

open Sys2Proof.Config

/-! ## What a command does besides responding -/

/-- All that a command can do to the state before it responds (43_consumer_commands.md R89 to R97). -/
inductive CommandEffect (s : State) : State → Prop where
  | unchanged : CommandEffect s s
  | levelWritten (i : Cell) (level : Nat) (h : level ≤ s.levelMax) :
      CommandEffect s { s with lvl := writeLevel s.lvl i level }
  | entryDropped (F : Channel) (h : (s.fifo F).count ≠ 0) :
      CommandEffect s (s.setFifo F (dropEntry (s.fifo F)))
  | flagsCleared (press release : Bool) :
      CommandEffect s (clearFlag release .release (clearFlag press .press s))

/-- An operation has a command word or is one of the two strobes (30_encoding.md R57). -/
theorem command_or_tick (i : Instr) :
    (encodeWord i).isSome ∨ i = .ledTick ∨ ∃ cols, i = .swTick cols := by
  cases i <;> simp [encodeWord]

theorem fifoReadRespond_effect (F : Channel) (s : State) :
    ∃ st v u, fifoReadRespond F s = respond st v u ∧ CommandEffect s u := by
  rcases fifoReadRespond_cases F s with ⟨_, h⟩ | ⟨hc, h⟩
  · exact ⟨_, _, _, h, .unchanged⟩
  · exact ⟨_, _, _, h, .entryDropped F hc⟩

/-- An operation that has a command word responds, after one of the effects above. -/
theorem exec_command_effect (i : Instr) (s : State) (hi : (encodeWord i).isSome) :
    ∃ st v u, exec i s = .next (respond st v u) ∧ CommandEffect s u := by
  cases i with
  | nop | getStatus => exact ⟨_, _, _, rfl, .unchanged⟩
  | setLevel idx level =>
    rcases idx_cases idx with ⟨c, rfl⟩ | h
    · rcases Nat.lt_or_ge s.levelMax level with hl | hl
      · exact ⟨_, _, _, exec_setLevel_badValue c level s hl, .unchanged⟩
      · exact ⟨_, _, _, exec_setLevel_ok c level s hl, .levelWritten c level hl⟩
    · exact ⟨_, _, _, exec_setLevel_badIndex idx level s h, .unchanged⟩
  | getLevel idx =>
    rcases idx_cases idx with ⟨c, rfl⟩ | h
    · exact ⟨_, _, _, exec_getLevel c s, .unchanged⟩
    · exact ⟨_, _, _, exec_getLevel_badIndex idx s h, .unchanged⟩
  | getSwitch idx =>
    rcases idx_cases idx with ⟨c, rfl⟩ | h
    · exact ⟨_, _, _, exec_getSwitch c s, .unchanged⟩
    · exact ⟨_, _, _, exec_getSwitch_badIndex idx s h, .unchanged⟩
  | readPress =>
    obtain ⟨st, v, u, h, hu⟩ := fifoReadRespond_effect .press s
    exact ⟨st, v, u, congrArg _ h, hu⟩
  | readRelease =>
    obtain ⟨st, v, u, h, hu⟩ := fifoReadRespond_effect .release s
    exact ⟨st, v, u, congrArg _ h, hu⟩
  | clearErr mask => exact ⟨_, _, _, rfl, .flagsCleared _ _⟩
  | ledTick | swTick cols => cases hi

/-! ## The invariant, over the shared operations -/

@[simp] theorem responseWord_status (st : Status) (v : Value) :
    (responseWord st v).extractLsb' 12 4 = statusCode st := by
  apply BitVec.eq_of_getLsbD_eq
  intro k hk
  simp only [responseWord, BitVec.getLsbD_extractLsb', BitVec.getLsbD_append]
  simp [hk]

/-- The byte of a cell index is below 12 (10_state.md R22). -/
theorem ofNat_cell_lt (v : Cell) : (BitVec.ofNat 8 v.val).toNat < 12 := by simp; omega

theorem statusCode_le (st : Status) : (statusCode st).toNat ≤ 4 := by cases st <;> decide

/-- The two FIFOs at reset are empty, their window at slot 0. -/
theorem Fifo.reset_ok : Fifo.reset.Ok := ⟨by decide, by decide, by decide⟩

/-- The invariant holds after a reset, whatever the build. -/
theorem invariant_resetOf (p : Params) (inputs : List PinsIn) : Invariant (State.resetOf p inputs) where
  fifo_ok F := by cases F <;> exact Fifo.reset_ok
  lvl_le i := by rw [readLevel_resetOf]; exact Nat.zero_le _
  cnt_le i := by rw [readCount_resetOf]; exact Nat.zero_le _
  col_onehot := .inl rfl
  status_le := by rw [show (State.resetOf p inputs).rsp = 0 from rfl]; decide

/-- Settles O40: the reset state of the default build is one of the reset states. -/
theorem invHoldsAtReset : Obligations.InvHoldsAtReset := invariant_resetOf Params.default []

namespace Invariant

/-! `{ hs with }` proves the invariant of a state that differs from `s` in no field the invariant names. -/

variable {s : State} (hs : Invariant s)
include hs

theorem respond (st : Status) (v : Value) : Invariant (respond st v s) :=
  { hs with
    fifo_ok := fun F => by rw [fifo_respond]; exact hs.fifo_ok F
    status_le := by rw [respond_rsp, responseWord_status]; exact statusCode_le st }

/-- A state with sound FIFOs and the counters, column enable and response of `s`: the levels need no
premise, as every level fits its cell. -/
theorem of_frame {t : State} (hf : ∀ F, (t.fifo F).Ok) (hcnt : t.cnt = s.cnt)
    (hcol : t.ledColEn = s.ledColEn) (hrsp : t.rsp = s.rsp) : Invariant t where
  fifo_ok := hf
  lvl_le i := readLevel_le_levelMax t i
  cnt_le i := by rw [State.target, hcnt]; exact hs.cnt_le i
  col_onehot := by rw [hcol]; exact hs.col_onehot
  status_le := by rw [hrsp]; exact hs.status_le

theorem setFifo (F : Channel) {f : Fifo} (hf : f.Ok) : Invariant (s.setFifo F f) := by
  refine hs.of_frame (fun G => ?_) (by simp) (by simp) (by simp)
  by_cases h : G = F
  · subst h; rwa [State.fifo_setFifo_same]
  · rw [State.fifo_setFifo_ne s F G f h]; exact hs.fifo_ok G

theorem setErrFull (F : Channel) (b : Bool) : Invariant (s.setErrFull F b) := by
  refine hs.of_frame (fun G => ?_) (by simp) (by simp) (by simp)
  rw [State.fifo_setErrFull]; exact hs.fifo_ok G

theorem clearFlag (selected : Bool) (F : Channel) : Invariant (clearFlag selected F s) := by
  cases selected with
  | true => exact hs.setErrFull F false
  | false => exact hs

theorem writeCount (i : Cell) {n : Nat} (hn : n ≤ s.target) :
    Invariant { s with cnt := writeCount s.cnt i n } :=
  { hs with
    cnt_le := fun j => by
      by_cases h : i = j
      · subst h
        rw [readCount_writeCount_same s.cnt i hn]; exact hn
      · rw [readCount_writeCount_ne s.cnt n h]; exact hs.cnt_le j }

theorem commandEffect {u : State} (h : CommandEffect s u) : Invariant u := by
  cases h with
  | unchanged => exact hs
  | levelWritten i level h => exact { hs with lvl_le := fun j => readLevel_le_levelMax _ j }
  | entryDropped F h => exact hs.setFifo F (dropEntry_ok (hs.fifo_ok F) h).1
  | flagsCleared press release => exact (hs.clearFlag press .press).clearFlag release .release

theorem fifoWrite (F : Channel) (v : Cell) : Invariant (fifoWrite F v s) := by
  rcases fifoWrite_cases F v s with ⟨_, h⟩ | ⟨hc, h⟩ <;> rw [h]
  · exact hs.setErrFull F true
  · exact hs.setFifo F (pushEntry_ok (hs.fifo_ok F) hc _ (ofNat_cell_lt _)).1

theorem debounce (i : Cell) (v : Bool) : Invariant (debounce i v s) := by
  rcases debounce_cases i v s with ⟨_, h⟩ | ⟨_, hlt, h⟩ | ⟨_, _, _, h⟩ | ⟨_, _, _, h⟩ <;> rw [h]
  · exact { hs.writeCount i (Nat.zero_le _) with }
  · exact hs.writeCount i hlt
  · exact Invariant.fifoWrite (s := { s with conf := writeCell s.conf i v }) { hs with } _ i
  · exact hs

theorem swTick (cols : Nibble) : Invariant (swTick cols s) := by
  have hscan : Invariant (scanRow s.swRowIx cols s) :=
    (((hs.debounce _ _).debounce _ _).debounce _ _).debounce _ _
  exact { hscan with }

theorem ledTick : Invariant (ledTick s) :=
  { hs with col_onehot := .inr ⟨s.ledColIx, rfl⟩ }

/-- Every operation keeps the invariant. -/
theorem exec (i : Instr) {t : State} (h : exec i s = .next t) : Invariant t := by
  rcases command_or_tick i with hi | rfl | ⟨cols, rfl⟩
  · obtain ⟨st, v, u, hu, heff⟩ := exec_command_effect i s hi
    cases hu.symm.trans h
    exact (hs.commandEffect heff).respond st v
  · cases h; exact hs.ledTick
  · cases h; exact hs.swTick cols

end Invariant

/-- Settles O41: every operation keeps the invariant, and a reset establishes it. -/
theorem everyStepKeepsInv : Obligations.EveryStepKeepsInv := by
  intro s t hs h
  refine step_keeps (P := Invariant) (fun i s t h hs => hs.exec i h)
    (fun s hs => hs.respond .illegal 0) s t h ?_ ?_
  · exact invariant_resetOf _ _
  · exact { hs with }

end Sys2Proof.Machine
end

section
/-!
PROOFS. The response register after every cycle (10_state.md R30), the switch row lines (R28) and the cells
(R16).
-/

namespace Sys2Proof.Machine

/-! ## The response register over a cycle -/

theorem eq_of_okWhen {b : Bool} {i j : Instr} (h : okWhen b i = .ok j) : j = i := by
  cases b with
  | true => cases h; rfl
  | false => cases h

/-- No word spells a strobe (30_encoding.md R57). -/
theorem encodeWord_isSome_of_decode {w : Word} {i : Instr} (h : decode w = .ok i) :
    (encodeWord i).isSome := by
  obtain ⟨hop, hrsv⟩ := decode_ok_fields h
  rw [← commandWord_fields w hrsv, decode_commandWord, if_neg (Nat.not_le.mpr hop)] at h
  split at h
  case h_9 => cases h
  all_goals cases eq_of_okWhen h; rfl

/-- Every word on the command port completes with a response (43_consumer_commands.md R97). -/
theorem executeWord_responds (w : Word) (s : State) :
    ∃ st v u, executeWord w s = .next (respond st v u) := by
  rw [executeWord]
  cases h : decode w with
  | error e => exact ⟨_, _, _, rfl⟩
  | ok i =>
    obtain ⟨st, v, u, hu, -⟩ := exec_command_effect i s (encodeWord_isSome_of_decode h)
    exact ⟨st, v, u, hu⟩

/-- The strobes a cycle presents, as operations, SW_TICK first (20_memory.md R40). -/
def tickOperations (p : PinsIn) : List (Except DecodeError Instr) :=
  (if p.swTick then [.ok (.swTick p.swColIn)] else []) ++ if p.ledTick then [.ok .ledTick] else []

theorem operations_of_command {p : PinsIn} (hr : p.rst = false) (hc : p.cmdValid = true) :
    operations p = decode p.cmd :: tickOperations p := by
  simp [operations, tickOperations, hr, hc]

theorem operations_of_no_command {p : PinsIn} (hr : p.rst = false) (hc : p.cmdValid = false) :
    operations p = tickOperations p := by
  simp [operations, tickOperations, hr, hc]

@[simp] theorem swTick_rspValid (cols : Nibble) (s : State) :
    (swTick cols s).rspValid = s.rspValid := by rw [swTick_frame]

@[simp] theorem swTick_rsp (cols : Nibble) (s : State) : (swTick cols s).rsp = s.rsp := by
  rw [swTick_frame]

/-- The ticks of a cycle leave the response register to the command port. -/
theorem tickOperations_keep_response (p : PinsIn) (s t : State)
    (h : runOperations (tickOperations p) s = .next t) :
    t.rspValid = s.rspValid ∧ t.rsp = s.rsp := by
  rw [tickOperations] at h
  split at h <;> split at h <;> cases h
  · exact ⟨swTick_rspValid _ s, swTick_rsp _ s⟩
  · exact ⟨swTick_rspValid _ s, swTick_rsp _ s⟩
  · exact ⟨rfl, rfl⟩
  · exact ⟨rfl, rfl⟩

/-- Settles O8: a command responds, no tick does, and a cycle starts with `rspValid` 0. -/
theorem responseRegisterAfterEveryCycle : Obligations.ResponseRegisterAfterEveryCycle := by
  intro p s t h
  refine ⟨fun hr => ?_, fun hr hc => ?_, fun hr hc => ?_⟩
  · rw [runCycle_of_rst p s hr] at h
    cases h
    exact ⟨rfl, rfl⟩
  · obtain ⟨st, v, u, hu⟩ := executeWord_responds p.cmd (portIdle s)
    rw [runCycle_of_not_rst p s hr, operations_of_command hr hc, runOperations, ← executeWord, hu,
      andThen_next] at h
    obtain ⟨hvalid, hrsp⟩ := tickOperations_keep_response p _ t h
    exact ⟨hvalid, _, hu, hrsp⟩
  · rw [runCycle_of_not_rst p s hr, operations_of_no_command hr hc] at h
    exact tickOperations_keep_response p _ t h

/-! ## Switch row lines and cells -/

/-- Settles O30: `sw_row_oe` is the one-hot value of the row cursor. -/
theorem switchRowLinesFollowTheCursor : Obligations.SwitchRowLinesFollowTheCursor := by
  refine ⟨fun s r => ?_, by decide⟩
  have henable : (swRowEnable s).getLsbD r.val = decide (r.val = s.swRow - 1) := by
    have hrow : s.swRow - 1 < 3 := s.swRowIx.isLt
    simp only [swRowEnable, onehot, BitVec.getLsbD_twoPow, hrow, decide_true, Bool.true_and, eq_comm]
  rw [swRowLine, henable, lineOf]
  simp only [decide_eq_true_eq]

/-- Settles O47: the addressing of R16 by definition, and its inverse by division with remainder. -/
theorem cellAddressing : Obligations.CellAddressing :=
  ⟨fun _ _ => rfl, fun _ => ⟨rfl, rfl⟩, fun r c => ⟨rowOf_cellAt r c, colOf_cellAt r c⟩⟩

end Sys2Proof.Machine
end

section
/-!
PROOFS. What the free FIFO slots hold cannot be told by any operation (10_state.md R33).
-/

namespace Sys2Proof.Machine

open Sys2Proof.Config

/-! ## FIFOs with the same entries -/

namespace Fifo.SameEntries

variable {f g : Fifo} (h : f.SameEntries g)
include h

theorem slotAt_eq (k : Nat) : slotAt g k = slotAt f k := by
  simp only [slotAt, h.head]

theorem readCell_eq {k : Nat} (hk : k < f.count.toNat) :
    readCell g.mem (slotAt g k) = readCell f.mem (slotAt f k) := by
  have hentries := h.entries
  rw [Fifo.entries, Fifo.entries, h.count, List.map_inj_left] at hentries
  exact hentries k (List.mem_range.mpr hk)

/-- The FIFO invariant speaks of the occupied window alone. -/
theorem ok (hf : f.Ok) : g.Ok where
  count_le := by rw [h.count]; exact hf.count_le
  tail_eq := by rw [h.tail, h.count, h.slotAt_eq]; exact hf.tail_eq
  entries_lt k hk := by
    rw [h.count] at hk
    rw [h.readCell_eq hk]
    exact hf.entries_lt k hk

theorem pushEntry (hf : f.Ok) (hc : f.count ≠ 12) {v : Byte} (hv : v.toNat < 12) :
    (pushEntry f v).SameEntries (pushEntry g v) where
  head := h.head
  tail := congrArg nextSlot h.tail
  count := congrArg (· + 1) h.count
  entries := by
    obtain ⟨-, hef, -⟩ := pushEntry_ok hf hc v hv
    obtain ⟨-, heg, -⟩ := pushEntry_ok (h.ok hf) (h.count ▸ hc) v hv
    rw [hef, heg, h.entries]

/-- The oldest entries of two such FIFOs are equal, and so are the entries behind them. -/
theorem oldest_and_rest (hf : f.Ok) (hc : f.count ≠ 0) :
    readCell g.mem g.head = readCell f.mem f.head ∧ (dropEntry g).entries = (dropEntry f).entries := by
  obtain ⟨-, hef, -⟩ := dropEntry_ok hf hc
  obtain ⟨-, heg, -⟩ := dropEntry_ok (h.ok hf) (h.count ▸ hc)
  exact List.cons_eq_cons.mp (heg.symm.trans (h.entries.trans hef))

theorem dropEntry (hf : f.Ok) (hc : f.count ≠ 0) : (dropEntry f).SameEntries (dropEntry g) where
  head := congrArg nextSlot h.head
  tail := h.tail
  count := congrArg (· - 1) h.count
  entries := (h.oldest_and_rest hf hc).2

end Fifo.SameEntries

/-! ## States that agree but for free slots -/

namespace SameButFreeSlots

variable {s u : State} (h : SameButFreeSlots s u)
include h

theorem fifo (F : Channel) : (s.fifo F).SameEntries (u.fifo F) := by
  cases F with
  | press => exact h.press
  | release => exact h.release

theorem lvl : u.lvl = s.lvl := by rw [h.rest]
theorem last : u.last = s.last := by rw [h.rest]
theorem cnt : u.cnt = s.cnt := by rw [h.rest]
theorem conf : u.conf = s.conf := by rw [h.rest]
theorem inputs : u.inputs = s.inputs := by rw [h.rest]
theorem swRowIx : u.swRowIx = s.swRowIx := by rw [h.rest]
theorem params : u.params = s.params := by rw [h.rest]; rfl
theorem errFull (F : Channel) : u.errFull F = s.errFull F := by rw [h.rest]; cases F <;> rfl
theorem outputs (pol : Polarity) : outputs pol u = outputs pol s := by rw [h.rest]; rfl

/-- A change of the state that neither reads nor writes a FIFO keeps the two states alike. -/
theorem map (φ : State → State) (hp : ∀ t, (φ t).press = t.press := by intros; rfl)
    (hr : ∀ t, (φ t).release = t.release := by intros; rfl)
    (hφ : ∀ (t : State) (f g : Fifo),
      φ { t with press := f, release := g } = { φ t with press := f, release := g } := by
        intros; rfl) :
    SameButFreeSlots (φ s) (φ u) where
  press := by rw [hp, hp]; exact h.press
  release := by rw [hr, hr]; exact h.release
  rest := by rw [hp, hr]; exact (congrArg φ h.rest).trans (hφ s u.press u.release)

theorem respond (st : Status) (v : Value) : SameButFreeSlots (respond st v s) (respond st v u) :=
  h.map (Machine.respond st v)

theorem setErrFull (F : Channel) (b : Bool) :
    SameButFreeSlots (s.setErrFull F b) (u.setErrFull F b) := by
  cases F with
  | press => exact h.map (State.setErrFull · .press b)
  | release => exact h.map (State.setErrFull · .release b)

theorem setFifo (F : Channel) {f g : Fifo} (hfg : f.SameEntries g) :
    SameButFreeSlots (s.setFifo F f) (u.setFifo F g) := by
  cases F with
  | press => exact ⟨hfg, h.release, by rw [h.rest]; rfl⟩
  | release => exact ⟨h.press, hfg, by rw [h.rest]; rfl⟩

theorem clearFlag (selected : Bool) (F : Channel) :
    SameButFreeSlots (clearFlag selected F s) (clearFlag selected F u) := by
  cases selected with
  | true => exact h.setErrFull F false
  | false => exact h

theorem statusWord_eq : statusWord u = statusWord s := by
  simp only [statusWord, h.errFull, (h.fifo _).count]

theorem fifoWrite (F : Channel) (v : Cell) (hf : (s.fifo F).Ok) :
    SameButFreeSlots (fifoWrite F v s) (fifoWrite F v u) := by
  simp only [Machine.fifoWrite, (h.fifo F).count]
  split
  · exact h.setErrFull F true
  · exact h.setFifo F ((h.fifo F).pushEntry hf ‹_› (ofNat_cell_lt _))

theorem fifoReadRespond (F : Channel) (hf : (s.fifo F).Ok) :
    SameButFreeSlots (fifoReadRespond F s) (fifoReadRespond F u) := by
  simp only [Machine.fifoReadRespond, (h.fifo F).count]
  split
  · exact h.respond .empty 0
  · rw [((h.fifo F).oldest_and_rest hf ‹_›).1]
    exact (h.setFifo F ((h.fifo F).dropEntry hf ‹_›)).respond .ok _

theorem debounce (i : Cell) (v : Bool) (hs : Invariant s) :
    SameButFreeSlots (debounce i v s) (debounce i v u) := by
  simp only [Machine.debounce, State.target, h.last, h.cnt, h.conf]
  split_ifs
  · exact h.map (noteChange i v)
  · exact h.map (countStable i)
  · have hconf := h.map (fun t => { t with conf := writeCell t.conf i v })
    exact hconf.fifoWrite _ i (hs.fifo_ok _)
  · exact h

theorem scanRow (r : Fin 3) (cols : Nibble) (hs : Invariant s) :
    SameButFreeSlots (scanRow r cols s) (scanRow r cols u) :=
  (((h.debounce _ _ hs).debounce _ _ (hs.debounce _ _)).debounce _ _
    ((hs.debounce _ _).debounce _ _)).debounce _ _ (((hs.debounce _ _).debounce _ _).debounce _ _)

theorem swTick (cols : Nibble) (hs : Invariant s) :
    SameButFreeSlots (swTick cols s) (swTick cols u) := by
  rw [Machine.swTick, Machine.swTick, h.swRowIx]
  exact (h.scanRow s.swRowIx cols hs).map (fun t => { t with swRowIx := nextRow s.swRowIx })

/-- An operation answers two such states with two such states. -/
theorem exec (i : Instr) (hs : Invariant s) :
    ∃ s' u', exec i s = .next s' ∧ exec i u = .next u' ∧ SameButFreeSlots s' u' := by
  cases i with
  | nop => exact ⟨_, _, rfl, rfl, h.respond .ok 0⟩
  | setLevel idx level =>
    rcases idx_cases idx with ⟨c, rfl⟩ | hi
    · have hmax : u.levelMax = s.levelMax := congrArg Params.levelMax h.params
      rcases Nat.lt_or_ge s.levelMax level with hl | hl
      · exact ⟨_, _, exec_setLevel_badValue c level s hl, exec_setLevel_badValue c level u (hmax ▸ hl),
          h.respond .badValue 0⟩
      · have hwrite := h.map (fun t => { t with lvl := writeLevel t.lvl c level })
        exact ⟨_, _, exec_setLevel_ok c level s hl, exec_setLevel_ok c level u (hmax ▸ hl),
          hwrite.respond .ok 0⟩
    · exact ⟨_, _, exec_setLevel_badIndex idx level s hi, exec_setLevel_badIndex idx level u hi,
        h.respond .badIndex 0⟩
  | getLevel idx =>
    rcases idx_cases idx with ⟨c, rfl⟩ | hi
    · refine ⟨_, _, exec_getLevel c s, exec_getLevel c u, ?_⟩
      rw [h.lvl]
      exact h.respond .ok _
    · exact ⟨_, _, exec_getLevel_badIndex idx s hi, exec_getLevel_badIndex idx u hi,
        h.respond .badIndex 0⟩
  | getSwitch idx =>
    rcases idx_cases idx with ⟨c, rfl⟩ | hi
    · refine ⟨_, _, exec_getSwitch c s, exec_getSwitch c u, ?_⟩
      rw [h.conf]
      exact h.respond .ok _
    · exact ⟨_, _, exec_getSwitch_badIndex idx s hi, exec_getSwitch_badIndex idx u hi,
        h.respond .badIndex 0⟩
  | readPress => exact ⟨_, _, rfl, rfl, h.fifoReadRespond .press (hs.fifo_ok _)⟩
  | readRelease => exact ⟨_, _, rfl, rfl, h.fifoReadRespond .release (hs.fifo_ok _)⟩
  | getStatus =>
    refine ⟨_, _, rfl, rfl, ?_⟩
    rw [h.statusWord_eq]
    exact h.respond .ok _
  | clearErr mask =>
    exact ⟨_, _, rfl, rfl, ((h.clearFlag _ .press).clearFlag _ .release).respond .ok 0⟩
  | ledTick => exact ⟨_, _, rfl, rfl, h.map Machine.ledTick⟩
  | swTick cols => exact ⟨_, _, rfl, rfl, h.swTick cols hs⟩

theorem runOperation (op : Except DecodeError Instr) (hs : Invariant s) :
    ∃ s' u', runOperation op s = .next s' ∧ runOperation op u = .next u' ∧ Invariant s' ∧
      SameButFreeSlots s' u' := by
  cases op with
  | ok i =>
    obtain ⟨s', u', hs', hu', h'⟩ := h.exec i hs
    exact ⟨s', u', hs', hu', hs.exec i hs', h'⟩
  | error e => exact ⟨_, _, rfl, rfl, hs.respond .illegal 0, h.respond .illegal 0⟩

theorem applyReset : SameButFreeSlots (applyReset s) (applyReset u) := by
  rw [Machine.applyReset, Machine.applyReset, h.params, h.inputs]
  exact ⟨⟨rfl, rfl, rfl, rfl⟩, ⟨rfl, rfl, rfl, rfl⟩, rfl⟩

end SameButFreeSlots

/-- The operations of a cycle cannot tell two such states apart. -/
theorem runOperations_sameButFreeSlots (ops : List (Except DecodeError Instr)) {s u : State}
    (hs : Invariant s) (h : SameButFreeSlots s u) :
    ∃ s' u', runOperations ops s = .next s' ∧ runOperations ops u = .next u' ∧
      SameButFreeSlots s' u' := by
  induction ops generalizing s u with
  | nil => exact ⟨s, u, rfl, rfl, h⟩
  | cons op ops ih =>
    obtain ⟨a, b, ha, hb, hinv, hab⟩ := h.runOperation op hs
    simp only [runOperations, ha, hb, andThen_next]
    exact ih hinv hab

/-- A cycle cannot tell two such states apart. -/
theorem runCycle_sameButFreeSlots (p : PinsIn) {s u : State} (hs : Invariant s)
    (h : SameButFreeSlots s u) :
    ∃ s' u', runCycle p s = .next s' ∧ runCycle p u = .next u' ∧ SameButFreeSlots s' u' := by
  cases hr : p.rst with
  | true => exact ⟨_, _, runCycle_of_rst p s hr, runCycle_of_rst p u hr, h.applyReset⟩
  | false =>
    rw [runCycle_of_not_rst p s hr, runCycle_of_not_rst p u hr]
    exact runOperations_sameButFreeSlots _ { hs with } (h.map portIdle)

/-- Settles O45: no port shows a slot, a push writes where no entry is and a read returns an entry, so the
relation is kept by every operation of a step. -/
theorem freeSlotsAreUnobservable : Obligations.FreeSlotsAreUnobservable := by
  intro pol s u s' hs h hstep
  have hpins : currentPins u = currentPins s := by rw [currentPins, currentPins, h.inputs]
  have hpop := h.map popInput
  obtain ⟨t, u', ht, hu, hsame⟩ :=
    runCycle_sameButFreeSlots (currentPins s) (s := popInput s) { hs with } hpop
  cases ht.symm.trans hstep
  exact ⟨h.outputs pol, u', by rw [step, hpins, hu], hsame⟩

end Sys2Proof.Machine
end

section
/-!
PROOFS. A byte-wide transport (20_memory.md R35) and the arrays by name (R34, R37).
-/

namespace Sys2Proof.Machine

/-! ## A byte-wide transport -/

/-- A word is its high byte above its low byte. -/
theorem highByte_append_lowByte (w : Word) : w.extractLsb' 8 8 ++ w.extractLsb' 0 8 = w :=
  (BitVec.extractLsb'_append_extractLsb'_eq_extractLsb' (x := w) (start₁ := 0) (len₁ := 8) rfl).trans
    BitVec.extractLsb'_eq_self

/-- Settles O13: the low byte goes first by definition, and the two bytes make up the word again. -/
theorem transportSendsLowByteFirst : Obligations.TransportSendsLowByteFirst := by
  intro w rest
  refine ⟨rfl, ?_⟩
  rw [transportBytes, List.cons_append, List.cons_append, transportWord, highByte_append_lowByte]
  rfl

/-! ## The arrays by name -/

/-- The width of an element of each array (20_memory.md R34). -/
def elementWidth (A : Space) (s : State) : Nat :=
  match A with
  | .lvl => s.params.levelW.bits
  | .last | .conf => 1
  | .cnt => s.params.cntW
  | .pmem | .rmem => 8

/-- All an array write does to its own array: the element takes the low bits of the value, as many as it
has, and no other element changes. -/
theorem memRead_memWrite (A : Space) (i j : Cell) (v : Nat) (s : State) :
    memRead A j (memWrite A i v s) = if i = j then v % 2 ^ elementWidth A s else memRead A j s := by
  cases A with
  | lvl => exact readLevel_writeLevel s.lvl i j v
  | cnt => exact readCount_writeCount s.cnt i j v
  | last | conf =>
    simp only [memRead, memWrite, readCell_writeCell]
    split
    · simp only [Nat.toNat_testBit, Nat.pow_zero, Nat.div_one, elementWidth, Nat.pow_one]
    · rfl
  | pmem | rmem =>
    simp only [memRead, memWrite, readCell_writeCell]
    split
    · exact BitVec.toNat_ofNat v 8
    · rfl

/-- An array write changes no other array. -/
theorem memRead_memWrite_of_ne {A B : Space} (h : B ≠ A) (i j : Cell) (v : Nat) (s : State) :
    memRead B j (memWrite A i v s) = memRead B j s := by
  cases A <;> cases B <;> simp [memRead, memWrite] at h ⊢

theorem memWrite_params (A : Space) (i : Cell) (v : Nat) (s : State) :
    (memWrite A i v s).params = s.params := by cases A <;> rfl

/-- Settles O48: a value that fits is its own low bits; the frame is that of the array written and of the
other arrays. -/
theorem arrayReadAfterWrite : Obligations.ArrayReadAfterWrite := by
  intro A i v s
  have hwritten : v < 2 ^ elementWidth A s → memRead A i (memWrite A i v s) = v := fun hv => by
    rw [memRead_memWrite, if_pos rfl, Nat.mod_eq_of_lt hv]
  refine ⟨?_, memWrite_params A i v s, fun B j hne => ?_⟩
  · cases A <;> exact hwritten
  · by_cases hB : B = A
    · subst hB
      rw [memRead_memWrite, if_neg (Ne.symm (hne.resolve_left (not_not_intro rfl)))]
    · exact memRead_memWrite_of_ne hB i j v s

end Sys2Proof.Machine
end

section
/-!
PROOFS. One cycle as its command and its two ticks (20_memory.md R40).
-/

namespace Sys2Proof.Machine

open Sys2Proof.Config

/-! ## A cycle as three transitions -/

/-- The state after the SW_TICK of a cycle, where the cycle has one. -/
def afterSwTick (p : PinsIn) (s : State) : State := if p.swTick then swTick p.swColIn s else s

/-- The state after the LED_TICK of a cycle, where the cycle has one. -/
def afterLedTick (p : PinsIn) (s : State) : State := if p.ledTick then ledTick s else s

theorem afterSwTick_of_swTick {p : PinsIn} (h : p.swTick = true) (s : State) :
    afterSwTick p s = swTick p.swColIn s := if_pos h

theorem afterSwTick_of_no_swTick {p : PinsIn} (h : p.swTick = false) (s : State) :
    afterSwTick p s = s := by rw [afterSwTick, h]; rfl

theorem afterLedTick_of_ledTick {p : PinsIn} (h : p.ledTick = true) (s : State) :
    afterLedTick p s = ledTick s := if_pos h

theorem afterLedTick_of_no_ledTick {p : PinsIn} (h : p.ledTick = false) (s : State) :
    afterLedTick p s = s := by rw [afterLedTick, h]; rfl

theorem runOperations_tickOperations (p : PinsIn) (s : State) :
    runOperations (tickOperations p) s = .next (afterLedTick p (afterSwTick p s)) := by
  rw [tickOperations, afterLedTick, afterSwTick]
  cases p.swTick <;> cases p.ledTick <;> rfl

/-- A cycle without reset is its command, if it has one, and then its two ticks. -/
theorem runCycle_eq_afterTicks {p : PinsIn} (s : State) (hr : p.rst = false) :
    ∃ a, (p.cmdValid = true → executeWord p.cmd (portIdle s) = .next a) ∧
      (p.cmdValid = false → a = portIdle s) ∧
      runCycle p s = .next (afterLedTick p (afterSwTick p a)) := by
  rw [runCycle_of_not_rst p s hr]
  cases hc : p.cmdValid with
  | true =>
    obtain ⟨a, ha⟩ := runOperation_next (decode p.cmd) (portIdle s)
    refine ⟨a, fun _ => ha, nofun, ?_⟩
    rw [operations_of_command hr hc, runOperations, ha, andThen_next, runOperations_tickOperations]
  | false =>
    refine ⟨portIdle s, nofun, fun _ => rfl, ?_⟩
    rw [operations_of_no_command hr hc, runOperations_tickOperations]

theorem executeWord_of_ok {w : Word} {i : Instr} (h : decode w = .ok i) (s : State) :
    executeWord w s = exec i s := by rw [executeWord, h]; rfl

theorem executeWord_of_error {w : Word} {e : DecodeError} (h : decode w = .error e) (s : State) :
    executeWord w s = .next { s with rspValid := true, rsp := 0x2000 } := by
  rw [executeWord, h]; rfl

/-- The state after reset holds the reset values, whatever the build (70_reset_and_hazards.md R115). -/
theorem holdsResetValues_resetOf (p : Params) (inputs : List PinsIn) :
    HoldsResetValues (State.resetOf p inputs) where
  lvl := readLevel_resetOf p inputs
  last := readCell_replicate true
  cnt := readCount_resetOf p inputs
  conf := readCell_replicate true
  fifo F := by cases F <;> exact ⟨rfl, rfl, rfl⟩
  ledCol := rfl
  subFrame := rfl
  swRow := rfl
  ledColEn := rfl
  ledRowOn := rfl
  errFull F := by cases F <;> rfl
  rspValid := rfl
  rsp := rfl

/-- Settles O5: the cycle's command, then its ticks, each where the cycle has it; at reset the reset state. -/
theorem cycleRunsCommandThenSwTickThenLedTick :
    Obligations.CycleRunsCommandThenSwTickThenLedTick := by
  intro s p rest hin s₀
  have hstep := step_of_inputs s p rest hin
  refine ⟨hstep, fun hr => ?_, fun hr => ?_⟩
  · exact ⟨_, hstep.trans (runCycle_of_rst p _ hr), holdsResetValues_resetOf _ _⟩
  · obtain ⟨a, hcommand, hnone, hcycle⟩ := runCycle_eq_afterTicks { s with inputs := rest } hr
    refine ⟨a, afterSwTick p a, _, fun hc => ⟨hcommand hc, fun i hi => ?_, fun e he => ?_⟩, hnone,
      fun h => ?_, fun h => ?_, fun h => ?_, fun h => ?_, hstep.trans hcycle⟩
    · rw [← executeWord_of_ok hi]; exact hcommand hc
    · cases (executeWord_of_error he _).symm.trans (hcommand hc); rfl
    · rw [afterSwTick_of_swTick h]; rfl
    · exact afterSwTick_of_no_swTick h a
    · rw [afterLedTick_of_ledTick h]; rfl
    · exact afterLedTick_of_no_ledTick h _

end Sys2Proof.Machine
end

section
/-!
PROOFS. Which reads have side effects (20_memory.md R38), and the one writer of each element (R43).
-/

namespace Sys2Proof.Machine

/-! ## Reads -/

/-- The read command of a FIFO (43_consumer_commands.md R93, R94). -/
def readOf : Channel → Instr
  | .press => .readPress
  | .release => .readRelease

theorem exec_readOf (F : Channel) (s : State) :
    exec (readOf F) s = .next (fifoReadRespond F s) := by cases F <;> rfl

/-- GET_LEVEL only responds, and the response is none of what it reads. -/
theorem exec_getLevel_twice (idx : Nat) (s : State) :
    ∃ st v, exec (.getLevel idx) s = .next (respond st v s) ∧
      exec (.getLevel idx) (respond st v s) = .next (respond st v s) := by
  rcases idx_cases idx with ⟨c, rfl⟩ | h
  · exact ⟨_, _, exec_getLevel c s, exec_getLevel c _⟩
  · exact ⟨_, _, exec_getLevel_badIndex idx s h, exec_getLevel_badIndex idx _ h⟩

/-- GET_SWITCH only responds, and the response is none of what it reads. -/
theorem exec_getSwitch_twice (idx : Nat) (s : State) :
    ∃ st v, exec (.getSwitch idx) s = .next (respond st v s) ∧
      exec (.getSwitch idx) (respond st v s) = .next (respond st v s) := by
  rcases idx_cases idx with ⟨c, rfl⟩ | h
  · exact ⟨_, _, exec_getSwitch c s, exec_getSwitch c _⟩
  · exact ⟨_, _, exec_getSwitch_badIndex idx s h, exec_getSwitch_badIndex idx _ h⟩

theorem entries_eq_nil_iff (f : Fifo) : f.entries = [] ↔ f.count = 0 := by
  rw [← List.length_eq_zero_iff, entries_length, BitVec.toNat_eq]
  rfl

/-- The word of an OK response with one byte has the byte in its low bits (43_consumer_commands.md R93). -/
theorem responseWord_ok_byte (v : Byte) :
    responseWord .ok (zext 12 v) = (0x0 : Nibble) ++ (0 : Nibble) ++ v := by
  apply BitVec.eq_of_toNat_eq
  rw [responseWord, BitVec.toNat_append, BitVec.toNat_append]
  simp [statusCode, zext]
  omega

/-- A FIFO read of an empty FIFO answers EMPTY and does nothing else. -/
theorem fifoReadRespond_of_empty {F : Channel} {s : State} (h : (s.fifo F).count = 0) :
    fifoReadRespond F s = { s with rspValid := true, rsp := 0x1000 } := by
  rw [fifoReadRespond, if_pos h]; rfl

/-- A FIFO read takes the first entry off and responds with it. -/
theorem fifoReadRespond_of_cons {F : Channel} {s : State} {v : Byte} {rest : List Byte}
    (hok : (s.fifo F).Ok) (h : (s.fifo F).entries = v :: rest) :
    (fifoReadRespond F s).rsp = (0x0 : Nibble) ++ (0 : Nibble) ++ v ∧
      ((fifoReadRespond F s).fifo F).entries = rest ∧ ((fifoReadRespond F s).fifo F).Ok := by
  have hc : (s.fifo F).count ≠ 0 := fun hc => by
    rw [(entries_eq_nil_iff _).mpr hc] at h; cases h
  obtain ⟨hok', hentries, -⟩ := dropEntry_ok hok hc
  obtain ⟨hv, hrest⟩ := List.cons_eq_cons.mp (h.symm.trans hentries)
  rw [fifoReadRespond, if_neg hc, respond_rsp, responseWord_ok_byte, fifo_respond,
    State.fifo_setFifo_same]
  exact ⟨by rw [hv], hrest.symm, hok'⟩

/-- Settles O23: the first three only respond, with what no response changes; a FIFO read takes the first
entry off. -/
theorem whichReadsHaveSideEffects : Obligations.WhichReadsHaveSideEffects := by
  refine ⟨fun i s hi => ?_, fun F s i hok hi => ?_⟩
  · have htwice : ∃ st v, exec i s = .next (respond st v s) ∧
        exec i (respond st v s) = .next (respond st v s) := by
      rcases hi with ⟨idx, rfl | rfl⟩ | rfl
      · exact exec_getLevel_twice idx s
      · exact exec_getSwitch_twice idx s
      · exact ⟨_, _, rfl, rfl⟩
    obtain ⟨st, v, honce, hagain⟩ := htwice
    exact ⟨_, honce, rfl, hagain⟩
  · have hexec : ∀ u, exec i u = .next (fifoReadRespond F u) := fun u => by
      rw [hi, ← exec_readOf]; cases F <;> rfl
    refine ⟨fun h => ?_, fun v rest h => ?_⟩
    · rw [hexec, fifoReadRespond_of_empty ((entries_eq_nil_iff _).mp h)]
    · obtain ⟨hrsp, hrest, hok'⟩ := fifoReadRespond_of_cons hok h
      refine ⟨_, hexec s, hrsp, hrest, fun v' rest' h' => ?_⟩
      obtain ⟨hrsp', hrest', -⟩ := fifoReadRespond_of_cons hok' (hrest.trans h')
      exact ⟨_, hexec _, hrsp', hrest'⟩

/-! ## Writers -/

/-- A claim of both channels is one of PRESS and one of RELEASE. -/
theorem Channel.forall_iff {P : Channel → Prop} : (∀ F, P F) ↔ P .press ∧ P .release :=
  ⟨fun h => ⟨h _, h _⟩, fun ⟨hp, hr⟩ F => by cases F <;> assumption⟩

/-- SET_LEVEL responds, and writes nothing but levels. -/
theorem exec_setLevel_frame (idx level : Nat) (s : State) :
    ∃ st lvl, exec (.setLevel idx level) s = .next (respond st 0 { s with lvl := lvl }) := by
  rcases idx_cases idx with ⟨i, rfl⟩ | h
  · rcases Nat.lt_or_ge s.levelMax level with hl | hl
    · exact ⟨_, s.lvl, exec_setLevel_badValue i level s hl⟩
    · exact ⟨_, _, exec_setLevel_ok i level s hl⟩
  · exact ⟨_, s.lvl, exec_setLevel_badIndex idx level s h⟩

/-- CLEAR_ERR responds, and writes nothing but the flags, to 0. -/
theorem exec_clearErr (mask : BitVec 2) (s : State) :
    exec (.clearErr mask) s = .next (respond .ok 0 { s with
      errPressFull := !mask.getLsbD 0 && s.errPressFull
      errReleaseFull := !mask.getLsbD 1 && s.errReleaseFull }) := by
  simp only [exec, execClearErr]
  cases mask.getLsbD 0 <;> cases mask.getLsbD 1 <;> rfl

/-- A FIFO read responds, and writes nothing but the head and the count of its FIFO. -/
theorem exec_readOf_frame (F : Channel) (s : State) :
    ∃ st v head count, exec (readOf F) s =
      .next (respond st v (s.setFifo F { s.fifo F with head := head, count := count })) := by
  rw [exec_readOf]
  rcases fifoReadRespond_cases F s with ⟨_, h⟩ | ⟨_, h⟩ <;> rw [h]
  · exact ⟨_, _, (s.fifo F).head, (s.fifo F).count, by cases F <;> rfl⟩
  · exact ⟨_, _, _, _, rfl⟩

/-- From `s` to `t` no entry is taken off a FIFO and no flag is cleared. -/
def KeepsHeadsAndSetFlags (s t : State) : Prop :=
  ∀ F, (t.fifo F).head = (s.fifo F).head ∧ (s.errFull F = true → t.errFull F = true)

theorem KeepsHeadsAndSetFlags.trans {s t u : State} (h : KeepsHeadsAndSetFlags s t)
    (h' : KeepsHeadsAndSetFlags t u) : KeepsHeadsAndSetFlags s u :=
  fun F => ⟨(h' F).1.trans (h F).1, (h' F).2 ∘ (h F).2⟩

theorem fifoWrite_keepsHeadsAndSetFlags (F : Channel) (v : Cell) (s : State) :
    KeepsHeadsAndSetFlags s (fifoWrite F v s) := by
  intro G
  rcases fifoWrite_cases F v s with ⟨_, h⟩ | ⟨_, h⟩ <;> rw [h] <;> cases F <;> cases G <;>
    simp [State.fifo, State.errFull, pushEntry]

theorem debounce_keepsHeadsAndSetFlags (i : Cell) (v : Bool) (s : State) :
    KeepsHeadsAndSetFlags s (debounce i v s) := by
  rcases debounce_cases i v s with ⟨_, h⟩ | ⟨_, _, h⟩ | ⟨_, _, _, h⟩ | ⟨_, _, _, h⟩ <;> rw [h]
  · intro F; simp
  · intro F; simp
  · have hconf : KeepsHeadsAndSetFlags s { s with conf := writeCell s.conf i v } :=
      fun F => by cases F <;> exact ⟨rfl, id⟩
    exact hconf.trans (fifoWrite_keepsHeadsAndSetFlags _ i _)
  · exact fun F => ⟨rfl, id⟩

theorem swTick_keepsHeadsAndSetFlags (cols : Nibble) (s : State) :
    KeepsHeadsAndSetFlags s (swTick cols s) := by
  have hdeb := debounce_keepsHeadsAndSetFlags
  have hscan : KeepsHeadsAndSetFlags s (scanRow s.swRowIx cols s) :=
    (((hdeb _ _ _).trans (hdeb _ _ _)).trans (hdeb _ _ _)).trans (hdeb _ _ _)
  exact hscan.trans fun F => by cases F <;> exact ⟨rfl, id⟩

/-- Settles O42: each operation by its frame. -/
theorem eachElementHasOneWriter : Obligations.EachElementHasOneWriter := by
  intro i s t h
  have hbuild : t.params = s.params ∧ t.inputs = s.inputs :=
    exec_keeps_ofBuild s.params s.inputs i s t h ⟨rfl, rfl⟩
  simp only [Channel.forall_iff, State.fifo, State.errFull, hbuild, and_true]
  cases i with
  | nop | getStatus => cases h; simp
  | setLevel idx level =>
    obtain ⟨st, lvl, hs⟩ := exec_setLevel_frame idx level s
    cases hs.symm.trans h
    simp
  | getLevel idx =>
    obtain ⟨st, v, hs, -⟩ := exec_getLevel_twice idx s
    cases hs.symm.trans h
    simp
  | getSwitch idx =>
    obtain ⟨st, v, hs, -⟩ := exec_getSwitch_twice idx s
    cases hs.symm.trans h
    simp
  | readPress =>
    obtain ⟨st, v, head, count, hs⟩ := exec_readOf_frame .press s
    cases hs.symm.trans h
    simp [State.fifo]
  | readRelease =>
    obtain ⟨st, v, head, count, hs⟩ := exec_readOf_frame .release s
    cases hs.symm.trans h
    simp [State.fifo]
  | clearErr mask =>
    cases (exec_clearErr mask s).symm.trans h
    simp +contextual
  | ledTick => cases h; simp
  | swTick cols =>
    cases h
    have hkeeps := swTick_keepsHeadsAndSetFlags cols s
    simp only [KeepsHeadsAndSetFlags, Channel.forall_iff, State.fifo, State.errFull] at hkeeps
    rw [swTick_frame]
    simp +contextual [hkeeps]

end Sys2Proof.Machine
end

section
/-!
PROOFS. What an SW_TICK pushes (41_switch_scanner.md R72 to R76), and what a command sees of a tick of its
own cycle (20_memory.md R40).
-/

namespace Sys2Proof.Machine

open Sys2Proof.Config

/-! ## Pushes into one FIFO -/

/-- What a bounded list has dropped leaves no room for what is appended later. -/
theorem take_append_of_take {α : Type} (n : Nat) (l m : List α) :
    (l.take n ++ m).take n = (l ++ m).take n := by
  rw [List.take_append, List.take_append, List.take_take, Nat.min_self, List.length_take]
  congr 2
  omega

/-- From `s` to `t` the `events` are pushed into FIFO `F`: those that find room are appended, and the sticky
flag is set if one finds none (40_event_fifo.md R61). -/
structure Pushes (F : Channel) (events : List Byte) (s t : State) : Prop where
  ok : (t.fifo F).Ok
  entries : (t.fifo F).entries = ((s.fifo F).entries ++ events).take 12
  errFull : t.errFull F =
    (s.errFull F || decide (12 < (s.fifo F).entries.length + events.length))

theorem entries_length_le {f : Fifo} (h : f.Ok) : f.entries.length ≤ 12 := by
  rw [entries_length]; exact h.count_le

namespace Pushes

variable {F : Channel} {s t u : State} {events more : List Byte}

/-- A change of the state that leaves the FIFO and its flag alone pushes nothing. -/
theorem nil (hok : (s.fifo F).Ok) (hfifo : t.fifo F = s.fifo F) (hflag : t.errFull F = s.errFull F) :
    Pushes F [] s t where
  ok := hfifo ▸ hok
  entries := by rw [hfifo, List.append_nil, List.take_of_length_le (entries_length_le hok)]
  errFull := by
    have hle := entries_length_le hok
    simp only [hflag, List.length_nil, Nat.add_zero, Nat.not_lt.mpr hle, decide_false, Bool.or_false]

/-- Pushes in a row: what finds no room in the first part leaves no room for the second. -/
theorem append (h : Pushes F events s t) (h' : Pushes F more t u) :
    Pushes F (events ++ more) s u where
  ok := h'.ok
  entries := by
    rw [h'.entries, h.entries, take_append_of_take, List.append_assoc]
  errFull := by
    rw [h'.errFull, h.errFull, h.entries, Bool.or_assoc, ← Bool.decide_or]
    congr 2
    simp
    omega

end Pushes

/-- FifoWrite is one push. -/
theorem fifoWrite_pushes (F : Channel) (v : Cell) {s : State} (hok : (s.fifo F).Ok) :
    Pushes F [BitVec.ofNat 8 v.val] s (fifoWrite F v s) := by
  rcases fifoWrite_cases F v s with ⟨hc, h⟩ | ⟨hc, h⟩ <;> rw [h]
  · have hlen : (s.fifo F).entries.length = 12 := by rw [entries_length, hc]; rfl
    exact ⟨by rwa [State.fifo_setErrFull], by simp [List.take_left' hlen], by simp [hlen]⟩
  · obtain ⟨hok', hentries, hcount⟩ := pushEntry_ok hok hc _ (ofNat_cell_lt v)
    have hlen : (s.fifo F).entries.length + 1 ≤ 12 := by
      rw [entries_length, ← hcount]; exact hok'.count_le
    refine ⟨by rwa [State.fifo_setFifo_same], ?_, ?_⟩
    · rw [State.fifo_setFifo_same, hentries, List.take_of_length_le (by simpa using hlen)]
    · simp [Nat.not_le.mpr hlen]

/-- FifoWrite leaves the other channel alone. -/
theorem fifoWrite_pushes_ne {F G : Channel} (hne : G ≠ F) (v : Cell) {s : State} (hok : (s.fifo G).Ok) :
    Pushes G [] s (fifoWrite F v s) := by
  rcases fifoWrite_cases F v s with ⟨_, h⟩ | ⟨_, h⟩ <;> rw [h]
  · exact .nil hok (by simp) (s.errFull_setErrFull_ne F G true hne)
  · exact .nil hok (s.fifo_setFifo_ne F G _ hne) (by simp)

/-! ## One SW_TICK -/

/-- Whether a sample of cell `i` that reads `raw` confirms a transition to `v` (41_switch_scanner.md R71, step
4): `confirms` for a cell of any row. -/
def confirmsCell (i : Cell) (raw v : Bool) (s : State) : Bool :=
  raw == v && readCell s.last i == v && decide (s.target ≤ readCount s.cnt i) && readCell s.conf i != v

theorem eventChannel_inj {v w : Bool} (h : eventChannel v = eventChannel w) : v = w := by
  revert v w; decide

theorem confirmsCell_iff (i : Cell) (raw v : Bool) (s : State) :
    confirmsCell i raw v s = true ↔
      raw = v ∧ readCell s.last i = v ∧ s.target ≤ readCount s.cnt i ∧ readCell s.conf i ≠ v := by
  simp [confirmsCell, and_assoc]

/-- Debounce pushes its cell into the FIFO of the transition it confirms. -/
theorem debounce_pushes (i : Cell) (raw v : Bool) {s : State} (hok : (s.fifo (eventChannel v)).Ok) :
    Pushes (eventChannel v) (if confirmsCell i raw v s then [BitVec.ofNat 8 i.val] else []) s
      (debounce i raw s) := by
  simp only [confirmsCell_iff]
  rcases debounce_cases i raw s with ⟨hraw, h⟩ | ⟨_, hcnt, h⟩ | ⟨hraw, hcnt, hconf, h⟩ |
    ⟨_, _, hconf, h⟩ <;> rw [h]
  · rw [if_neg fun ⟨hv, hlast, _⟩ => hraw (hv.trans hlast.symm)]
    exact .nil hok (by simp) (by simp)
  · rw [if_neg fun ⟨_, _, hle, _⟩ => Nat.not_lt.mpr hle hcnt]
    exact .nil hok (by simp) (by simp)
  · have hpushed : Pushes (eventChannel v) [] s { s with conf := writeCell s.conf i raw } :=
      .nil hok (by cases v <;> rfl) (by cases v <;> rfl)
    by_cases hv : raw = v
    · subst hv
      rw [if_pos ⟨rfl, hraw.symm, hcnt, hconf⟩]
      exact hpushed.append (fifoWrite_pushes _ i hpushed.ok)
    · rw [if_neg fun ⟨e, _⟩ => hv e]
      exact hpushed.append (fifoWrite_pushes_ne (fun e => hv (eventChannel_inj e).symm) i hpushed.ok)
  · rw [if_neg fun ⟨hv, _, _, hne⟩ => hne (hconf.trans hv)]
    exact .nil hok rfl rfl

/-- Debounce of a cell has no part in what another cell confirms. -/
theorem confirmsCell_debounce_of_ne {i j : Cell} (hne : i ≠ j) (raw raw' v : Bool) (s : State) :
    confirmsCell j raw' v (debounce i raw s) = confirmsCell j raw' v s := by
  rcases debounce_cases i raw s with ⟨_, h⟩ | ⟨_, _, h⟩ | ⟨_, _, _, h⟩ | ⟨_, _, _, h⟩ <;> rw [h]
  · simp [confirmsCell, State.target, readCell_writeCell_ne _ _ _ _ hne, readCount_writeCount_ne _ _ hne]
  · simp [confirmsCell, State.target, readCount_writeCount_ne _ _ hne]
  · rw [acceptTransition, fifoWrite_frame]
    simp [confirmsCell, State.target, readCell_writeCell_ne _ _ _ _ hne]

/-- The events of the columns `cs` of row `r`: `confirmedEvents` for a part of any row. -/
def rowEvents (r : Fin 3) (cols : Nibble) (v : Bool) (cs : List (Fin 4)) (s : State) : List Byte :=
  (cs.filter fun c => confirmsCell (cellAt r c) (cols.getLsbD c.val) v s).map fun c =>
    BitVec.ofNat 8 (cellAt r c).val

theorem confirmedEvents_eq_rowEvents (s : State) (cols : Nibble) (v : Bool) :
    confirmedEvents s cols v = rowEvents s.swRowIx cols v [0, 1, 2, 3] s := rfl

theorem rowEvents_cons (r : Fin 3) (cols : Nibble) (v : Bool) (c : Fin 4) (cs : List (Fin 4))
    (s : State) :
    rowEvents r cols v (c :: cs) s =
      (if confirmsCell (cellAt r c) (cols.getLsbD c.val) v s then [BitVec.ofNat 8 (cellAt r c).val]
        else []) ++ rowEvents r cols v cs s := by
  simp only [rowEvents, List.filter_cons]
  split <;> rfl

theorem rowEvents_debounce_of_not_mem {r : Fin 3} {c : Fin 4} {cs : List (Fin 4)} (hc : c ∉ cs)
    (cols : Nibble) (raw v : Bool) (s : State) :
    rowEvents r cols v cs (debounce (cellAt r c) raw s) = rowEvents r cols v cs s := by
  rw [rowEvents, rowEvents]
  congr 1
  refine List.filter_congr fun d hd => confirmsCell_debounce_of_ne (fun e => hc ?_) _ _ _ _
  rwa [(cellAt_inj e).2]

/-- The scan of some columns of a row pushes the events they confirm in the state before the scan. -/
theorem foldl_debounce_pushes (r : Fin 3) (cols : Nibble) (v : Bool) (cs : List (Fin 4)) (hcs : cs.Nodup)
    {s : State} (hok : (s.fifo (eventChannel v)).Ok) :
    Pushes (eventChannel v) (rowEvents r cols v cs s) s
      (cs.foldl (fun t c => debounce (cellAt r c) (cols.getLsbD c.val) t) s) := by
  induction cs generalizing s with
  | nil => exact .nil hok rfl rfl
  | cons c cs ih =>
    obtain ⟨hc, hcs⟩ := List.nodup_cons.mp hcs
    have hfirst := debounce_pushes (cellAt r c) (cols.getLsbD c.val) v hok
    have hrest := ih hcs hfirst.ok
    rw [rowEvents_debounce_of_not_mem hc] at hrest
    rw [rowEvents_cons]
    exact hfirst.append hrest

/-- SW_TICK pushes the transitions to `v` it confirms, in ascending column order (41_switch_scanner.md R74). -/
theorem swTick_pushes (cols : Nibble) (v : Bool) {s : State} (hok : (s.fifo (eventChannel v)).Ok) :
    Pushes (eventChannel v) (confirmedEvents s cols v) s (swTick cols s) := by
  have hscan := foldl_debounce_pushes s.swRowIx cols v [0, 1, 2, 3] (by decide) hok
  have hrow : Pushes (eventChannel v) [] (scanRow s.swRowIx cols s) (swTick cols s) :=
    .nil hscan.ok (by cases v <;> rfl) (by cases v <;> rfl)
  rw [confirmedEvents_eq_rowEvents, ← List.append_nil (rowEvents _ _ _ _ _)]
  exact hscan.append hrow

/-! ## A FIFO read or a CLEAR_ERR, and then the SW_TICK -/

theorem confirmedEvents_fifoReadRespond (F : Channel) (s : State) :
    confirmedEvents (fifoReadRespond F s) = confirmedEvents s := by
  rcases fifoReadRespond_cases F s with ⟨_, h⟩ | ⟨_, h⟩ <;> rw [h]
  · rfl
  · cases F <;> rfl

theorem errFull_fifoReadRespond (F G : Channel) (s : State) :
    (fifoReadRespond F s).errFull G = s.errFull G := by
  rcases fifoReadRespond_cases F s with ⟨_, h⟩ | ⟨_, h⟩ <;> simp [h]

section

variable {v : Bool} {s : State} (hok : (s.fifo (eventChannel v)).Ok) (cols : Nibble)
include hok

/-- A read of an empty FIFO answers EMPTY, and what the SW_TICK after it pushes is there. -/
theorem swTick_after_read_of_empty (hc : (s.fifo (eventChannel v)).count = 0) :
    let t := swTick cols (fifoReadRespond (eventChannel v) s)
    t.rsp = 0x1000 ∧ (t.fifo (eventChannel v)).entries = confirmedEvents s cols v := by
  have hentries := (entries_eq_nil_iff _).mpr hc
  have hlen : (confirmedEvents s cols v).length ≤ 4 := by
    rw [confirmedEvents, List.length_map]
    exact List.length_filter_le _ _
  have hread : fifoReadRespond (eventChannel v) s = respond .empty 0 s := if_pos hc
  have hpush := swTick_pushes cols v (s := respond .empty 0 s) (by rwa [fifo_respond])
  rw [hread]
  refine ⟨swTick_rsp _ _, ?_⟩
  rw [hpush.entries, fifo_respond, hentries]
  exact List.take_of_length_le (hlen.trans (by decide))

/-- A read of a full FIFO frees the slot for one push of the SW_TICK after it. -/
theorem swTick_after_read_of_full (hc : (s.fifo (eventChannel v)).count = 12)
    (hone : (confirmedEvents s cols v).length ≤ 1) :
    let t := swTick cols (fifoReadRespond (eventChannel v) s)
    t.rsp = (0x0 : Nibble) ++ (0 : Nibble) ++
        readCell (s.fifo (eventChannel v)).mem (s.fifo (eventChannel v)).head ∧
      t.errFull (eventChannel v) = s.errFull (eventChannel v) ∧
      (t.fifo (eventChannel v)).entries =
        (s.fifo (eventChannel v)).entries.tail ++ confirmedEvents s cols v := by
  intro t
  obtain ⟨-, hentries, -⟩ := dropEntry_ok hok (by rw [hc]; decide)
  obtain ⟨hrsp, hrest, hok'⟩ := fifoReadRespond_of_cons hok hentries
  have hlen : (dropEntry (s.fifo (eventChannel v))).entries.length = 11 := by
    have h := entries_length (s.fifo (eventChannel v))
    rw [hentries, hc] at h
    exact Nat.succ_injective h
  have hpush := swTick_pushes cols v hok'
  have hflag := hpush.errFull
  rw [confirmedEvents_fifoReadRespond, errFull_fifoReadRespond, hrest, hlen,
    decide_eq_false (by omega), Bool.or_false] at hflag
  refine ⟨by rw [swTick_rsp, hrsp], hflag, ?_⟩
  rw [hpush.entries, hrest, confirmedEvents_fifoReadRespond, hentries, List.tail_cons,
    List.take_of_length_le (by rw [List.length_append]; omega)]

/-- A push that finds the FIFO full leaves the flag set, whatever it was. -/
theorem errFull_swTick_of_full (hc : (s.fifo (eventChannel v)).count = 12)
    (hne : confirmedEvents s cols v ≠ []) : (swTick cols s).errFull (eventChannel v) = true := by
  have hpos := List.length_pos_iff.mpr hne
  have hlen : (s.fifo (eventChannel v)).entries.length = 12 := by rw [entries_length, hc]; rfl
  rw [(swTick_pushes cols v hok).errFull, hlen, decide_eq_true (by omega), Bool.or_true]

end

/-! ## GET_STATUS, and the rows an LED_TICK drives -/

theorem rowPattern_getLsbD (s : State) (r : Fin 3) :
    (rowPattern s).getLsbD r.val = rowActive s r := by
  simp only [rowPattern, BitVec.getLsbD_append]
  fin_cases r <;> simp

/-- The fields of the response to a GET_STATUS (10_state.md R31). -/
theorem statusResponse_fields (s : State) :
    (responseWord .ok (statusWord s)).extractLsb' 0 4 = (s.fifo .press).count ∧
      (responseWord .ok (statusWord s)).extractLsb' 4 4 = (s.fifo .release).count ∧
      (responseWord .ok (statusWord s)).getLsbD 8 = s.errFull .press ∧
      (responseWord .ok (statusWord s)).getLsbD 9 = s.errFull .release := by
  refine ⟨BitVec.eq_of_getLsbD_eq fun k hk => ?_, BitVec.eq_of_getLsbD_eq fun k hk => ?_, ?_, ?_⟩ <;>
    simp only [responseWord, statusWord, BitVec.getLsbD_extractLsb', BitVec.getLsbD_append]
  · interval_cases k <;> simp
  · interval_cases k <;> simp
  · simp
  · simp

/-! ## A whole cycle -/

@[simp] theorem afterLedTick_fifo (p : PinsIn) (s : State) (F : Channel) :
    (afterLedTick p s).fifo F = s.fifo F := by
  rw [afterLedTick]; split <;> cases F <;> rfl

@[simp] theorem afterLedTick_errFull (p : PinsIn) (s : State) (F : Channel) :
    (afterLedTick p s).errFull F = s.errFull F := by
  rw [afterLedTick]; split <;> cases F <;> rfl

@[simp] theorem afterLedTick_rsp (p : PinsIn) (s : State) : (afterLedTick p s).rsp = s.rsp := by
  rw [afterLedTick]; split <;> rfl

@[simp] theorem afterSwTick_rsp (p : PinsIn) (s : State) : (afterSwTick p s).rsp = s.rsp := by
  rw [afterSwTick]; split <;> simp

/-- The SW_TICK of a cycle has no part in what its LED_TICK drives. -/
theorem rowActive_afterSwTick (p : PinsIn) (s : State) :
    rowActive (afterSwTick p s) = rowActive s := by
  rw [afterSwTick]
  split
  · rw [swTick_frame]; rfl
  · rfl

/-- What the LED_TICK of a cycle drives after a SET_LEVEL. -/
theorem rowActive_setLevel (i : Cell) {level : Nat} (s : State) (h : level ≤ s.levelMax) (r : Fin 3) :
    rowActive (respond .ok 0 { s with lvl := writeLevel s.lvl i level }) r =
      decide (s.subFrame ≤ if cellAt r s.ledColIx = i then level
        else readLevel s.lvl (cellAt r s.ledColIx)) := by
  have hread := readLevel_writeLevel s.lvl i (cellAt r s.ledColIx) level
  rw [Nat.mod_eq_of_lt ((le_levelMax_iff s level).mp h)] at hread
  simp only [eq_comm (b := i), ← hread]
  rfl

/-- A FIFO read beside an SW_TICK, over the whole cycle. -/
theorem sameCycle_read {s a : State} {p : PinsIn} {v : Bool} (hok : (s.fifo (eventChannel v)).Ok)
    (ha : exec (readOf (eventChannel v)) s = .next a) (hsw : p.swTick = true) :
    let F := eventChannel v
    let events := confirmedEvents s p.swColIn v
    let t := afterLedTick p (afterSwTick p a)
    ((s.fifo F).count = 0 → t.rsp = 0x1000 ∧ (t.fifo F).entries = events) ∧
    ((s.fifo F).count = 12 → events.length ≤ 1 →
      t.rsp = (0x0 : Nibble) ++ (0 : Nibble) ++ readCell (s.fifo F).mem (s.fifo F).head ∧
        t.errFull F = s.errFull F ∧ (t.fifo F).entries = (s.fifo F).entries.tail ++ events) := by
  cases (exec_readOf _ s).symm.trans ha
  simp only [afterLedTick_fifo, afterLedTick_errFull, afterLedTick_rsp, afterSwTick_of_swTick hsw]
  exact ⟨swTick_after_read_of_empty hok p.swColIn, swTick_after_read_of_full hok p.swColIn⟩

/-- A CLEAR_ERR beside a failing push, over the whole cycle. -/
theorem sameCycle_clearErr {s a : State} {p : PinsIn} {v : Bool} {mask : BitVec 2}
    (hok : (s.fifo (eventChannel v)).Ok) (ha : exec (.clearErr mask) s = .next a)
    (hsw : p.swTick = true) (hc : (s.fifo (eventChannel v)).count = 12)
    (hne : confirmedEvents s p.swColIn v ≠ []) :
    (afterLedTick p (afterSwTick p a)).errFull (eventChannel v) = true := by
  cases (exec_clearErr mask s).symm.trans ha
  rw [afterLedTick_errFull, afterSwTick_of_swTick hsw]
  apply errFull_swTick_of_full
  · cases v <;> exact hok
  · cases v <;> exact hc
  · exact hne

/-- Settles O6: the ticks of a cycle run on the state its command left. -/
theorem sameCycleConsequences : Obligations.SameCycleConsequences := by
  intro s p hr hc hok
  obtain ⟨a, hcommand, -, hcycle⟩ := runCycle_eq_afterTicks s hr
  have hexec : ∀ i, decode p.cmd = .ok i → exec i (portIdle s) = .next a := fun i hi => by
    rw [← executeWord_of_ok hi]; exact hcommand hc
  refine ⟨_, hcycle, fun F => ?_, fun i level hi hl hled r => ?_, fun hi => ?_⟩
  · cases F with
    | press =>
      exact ⟨fun hi => sameCycle_read (s := portIdle s) (v := false) (hok .press) (hexec _ hi),
        fun _ hi => sameCycle_clearErr (s := portIdle s) (v := false) (hok .press) (hexec _ hi)⟩
    | release =>
      exact ⟨fun hi => sameCycle_read (s := portIdle s) (v := true) (hok .release) (hexec _ hi),
        fun _ hi => sameCycle_clearErr (s := portIdle s) (v := true) (hok .release) (hexec _ hi)⟩
  · cases (exec_setLevel_ok i level (portIdle s) hl).symm.trans (hexec _ hi)
    rw [afterLedTick_of_ledTick hled, ledTick_ledRowOn, rowPattern_getLsbD, rowActive_afterSwTick,
      rowActive_setLevel i (portIdle s) hl r]
    rfl
  · cases hexec _ hi
    rw [afterLedTick_rsp, afterSwTick_rsp]
    exact statusResponse_fields (portIdle s)

end Sys2Proof.Machine
end

section
/-!
PROOFS. The decoder and the encoder are inverse to each other (30_encoding.md R48 to R58): in the words, in
the match and mask table, on the ports, and in what the assembler emits (R59, R60).
-/

namespace Sys2Proof.Machine

open Sys2Proof.Config

/-! ## Words and their fields -/

/-- A word is known by its four fields (30_encoding.md R48). -/
theorem word_eq_iff_fields (w v : Word) :
    w = v ↔ opField w = opField v ∧ rsvField w = rsvField v ∧ idxField w = idxField v ∧
      dataField w = dataField v := by
  refine ⟨fun h => by simp only [h, and_self], fun ⟨hop, hrsv, hidx, hdata⟩ => ?_⟩
  rw [word_eq_fields w, word_eq_fields v, hop, hrsv, hidx, hdata]

/-- A word is the command word of `op`, `idx` and `data` exactly when these are its fields and RSV is 0. -/
theorem commandWord_eq_iff (op idx data : Nibble) (w : Word) :
    commandWord op idx data = w ↔
      opField w = op ∧ rsvField w = 0 ∧ idxField w = idx ∧ dataField w = data := by
  rw [eq_comm, word_eq_iff_fields]
  simp only [opField_commandWord, rsvField_commandWord, idxField_commandWord, dataField_commandWord]

/-- The fields of a word written as four nibbles (30_encoding.md R48). -/
theorem fields_append (op rsv idx data : Nibble) :
    opField (op ++ rsv ++ idx ++ data) = op ∧ rsvField (op ++ rsv ++ idx ++ data) = rsv ∧
      idxField (op ++ rsv ++ idx ++ data) = idx ∧ dataField (op ++ rsv ++ idx ++ data) = data := by
  have dropData (start : Nat) (h : 4 ≤ start) : (op ++ rsv ++ idx ++ data).extractLsb' start 4 =
      (op ++ rsv ++ idx).extractLsb' (start - 4) 4 := BitVec.extractLsb'_append_eq_of_le h
  have dropIdx (start : Nat) (h : 4 ≤ start) : (op ++ rsv ++ idx).extractLsb' start 4 =
      (op ++ rsv).extractLsb' (start - 4) 4 := BitVec.extractLsb'_append_eq_of_le h
  exact ⟨(dropData 12 (by decide)).trans <| (dropIdx 8 (by decide)).trans BitVec.extractLsb'_append_eq_left,
    (dropData 8 (by decide)).trans <| (dropIdx 4 (by decide)).trans BitVec.extractLsb'_append_eq_right,
    (dropData 4 (by decide)).trans BitVec.extractLsb'_append_eq_right,
    BitVec.extractLsb'_append_eq_right⟩

/-- A word matches `m` under `mask` exactly when each of its fields does. -/
theorem and_eq_iff_fields (w mask m : Word) :
    w &&& mask = m ↔ opField w &&& opField mask = opField m ∧ rsvField w &&& rsvField mask = rsvField m ∧
      idxField w &&& idxField mask = idxField m ∧ dataField w &&& dataField mask = dataField m := by
  rw [word_eq_iff_fields]
  simp only [opField, rsvField, idxField, dataField, BitVec.extractLsb'_and]

/-- A four-bit field holds a number below 16 (30_encoding.md R48). -/
theorem nibble_toNat_lt (n : Nibble) : n.toNat < 16 := n.isLt

/-! ## Decoding and encoding -/

theorem okWhen_eq_ok_iff {b : Bool} {i j : Instr} : okWhen b i = .ok j ↔ b = true ∧ i = j := by
  cases b <;> simp

/-- The DATA field of a CLEAR_ERR, with its two reserved bits 0, is known by its mask (30_encoding.md R51). -/
theorem clearErrData_eq_iff (data : Nibble) (mask : BitVec 2) :
    (0 : BitVec 2) ++ mask = data ↔ data.extractLsb' 2 2 = 0 ∧ data.extractLsb' 0 2 = mask := by
  revert data mask
  decide

/-- The word of a well-formed command decodes to it. -/
theorem decode_encodeWord {i : Instr} {w : Word} (hi : i.wellFormed = true)
    (hw : encodeWord i = some w) : decode w = .ok i := by
  cases i with
  | setLevel idx level =>
    simp only [Instr.wellFormed, Bool.and_eq_true, decide_eq_true_eq] at hi
    cases hw
    rw [decode_commandWord]
    simp [Nat.mod_eq_of_lt, hi]
  | getLevel idx | getSwitch idx =>
    simp only [Instr.wellFormed, decide_eq_true_eq] at hi
    cases hw
    rw [decode_commandWord]
    simp [Nat.mod_eq_of_lt, hi]
  | clearErr mask =>
    obtain ⟨hreserved, hmask⟩ := (clearErrData_eq_iff _ mask).mp rfl
    cases hw
    rw [decode_commandWord, hreserved, hmask]
    rfl
  | ledTick | swTick cols => cases hw
  | nop | readPress | readRelease | getStatus => cases hw; rfl

/-- A command word that decodes is the word of its command, whose operands fit their fields. -/
theorem encodeWord_of_decode_commandWord {op idx data : Nibble} {i : Instr}
    (h : decode (commandWord op idx data) = .ok i) :
    encodeWord i = some (commandWord op idx data) ∧ i.wellFormed = true := by
  rw [decode_commandWord] at h
  split at h
  · cases h
  split at h
  case h_9 => cases h
  all_goals
    rename_i hop
    obtain ⟨hreserved, rfl⟩ := okWhen_eq_ok_iff.mp h
    obtain rfl := (BitVec.toNat_eq_nat.mp hop).2
  -- `h_k` is the row of OP = k − 1, and `hreserved` says which operand bits the row leaves 0.
  case h_2 =>
    exact ⟨by simp [encodeWord], by simp [Instr.wellFormed, nibble_toNat_lt]⟩
  case h_3 | h_4 =>
    obtain rfl := beq_iff_eq.mp hreserved
    exact ⟨by simp [encodeWord], by simp [Instr.wellFormed, nibble_toNat_lt]⟩
  case h_8 =>
    obtain ⟨rfl, hdata⟩ : idx = 0 ∧ data.extractLsb' 2 2 = 0 := by simpa using hreserved
    exact ⟨congrArg (some <| commandWord 0x7 0 ·) ((clearErrData_eq_iff data _).mpr ⟨hdata, rfl⟩), rfl⟩
  case h_1 | h_5 | h_6 | h_7 =>
    obtain ⟨rfl, rfl⟩ : idx = 0 ∧ data = 0 := by simpa using hreserved
    exact ⟨rfl, rfl⟩

/-- A word decodes to a command exactly when it is the word of the command and the operands fit their
fields. -/
theorem decode_eq_ok_iff {w : Word} {i : Instr} :
    decode w = .ok i ↔ encodeWord i = some w ∧ i.wellFormed = true := by
  refine ⟨fun h => ?_, fun ⟨hw, hi⟩ => decode_encodeWord hi hw⟩
  obtain ⟨-, hrsv⟩ := decode_ok_fields h
  rw [← commandWord_fields w hrsv] at h ⊢
  exact encodeWord_of_decode_commandWord h

theorem encode_of_encodeWord_eq_some {i : Instr} {w : Word} (h : encodeWord i = some w) :
    encode i = presentCommand w := by rw [encode, h]

theorem encode_rst (i : Instr) : (encode i).rst = false := by cases i <;> rfl

/-- Settles O10: a command is decoded from its word, and a strobe is read from its port. -/
theorem decodeOfEncodeIsTheInstruction : Obligations.DecodeOfEncodeIsTheInstruction := by
  intro i hi
  cases hw : encodeWord i with
  | some w =>
    rw [encode_of_encodeWord_eq_some hw, operations_of_command rfl rfl]
    exact congrArg ([·]) (decode_encodeWord hi hw)
  | none =>
    cases i with
    | ledTick | swTick cols => rfl
    | _ => cases hw

/-- Settles O4: the encoder's pins present the one operation. -/
theorem encodedOperationIsTheOneRun : Obligations.EncodedOperationIsTheOneRun := by
  intro s i hi
  obtain ⟨t, ht⟩ := exec_next i { s with inputs := s.inputs.tail, rspValid := false }
  rw [State.withOperation, step_of_inputs (presentPins (encode i) s) (encode i) s.inputs.tail rfl,
    runCycle_of_not_rst _ _ (encode_rst i), decodeOfEncodeIsTheInstruction i hi, ht, runOperations]
  exact congrArg (andThen · (runOperations [])) ht

/-- Settles O11: the other direction of the same equivalence. -/
theorem encodeOfDecodeIsTheWord : Obligations.EncodeOfDecodeIsTheWord := fun _ _ h =>
  decode_eq_ok_iff.mp h

/-- Settles O12, by computation of the decoder on each word. -/
theorem sampleWordsDecode : Obligations.SampleWordsDecode := by
  unfold Obligations.SampleWordsDecode
  decide

/-! ## The match and mask table (30_encoding.md R51) -/

/-- The mask of a row: it fixes OP and RSV, and the bits of IDX and DATA that are no operand. -/
def rowMask (idxMask dataMask : Nibble) : Word := (0xF : Nibble) ++ (0xF : Nibble) ++ idxMask ++ dataMask

/-- A word matches a row exactly when OP is the row's and every other fixed bit is 0. -/
theorem and_rowMask_eq_iff (w : Word) (op idxMask dataMask : Nibble) :
    w &&& rowMask idxMask dataMask = commandWord op 0 0 ↔
      opField w = op ∧ rsvField w = 0 ∧ idxField w &&& idxMask = 0 ∧ dataField w &&& dataMask = 0 := by
  obtain ⟨hop, hrsv, hidx, hdata⟩ := fields_append 0xF 0xF idxMask dataMask
  have hall (n : Nibble) : n &&& 0xF = n := BitVec.and_allOnes
  rw [and_eq_iff_fields, rowMask, hop, hrsv, hidx, hdata, hall, hall, opField_commandWord,
    rsvField_commandWord, idxField_commandWord, dataField_commandWord]

/-- A row is right when its mask leaves each of IDX and DATA exactly the values the command has there. -/
theorem and_rowMask_eq_iff_decode {w : Word} {idx data : Nibble} (i : Instr) (op idxMask dataMask : Nibble)
    (hword : encodeWord i = some (commandWord op idx data)) (hi : i.wellFormed = true)
    (hidx : idxField w &&& idxMask = 0 ↔ idxField w = idx)
    (hdata : dataField w &&& dataMask = 0 ↔ dataField w = data) :
    w &&& rowMask idxMask dataMask = commandWord op 0 0 ↔ decode w = .ok i := by
  rw [and_rowMask_eq_iff, hidx, hdata, ← commandWord_eq_iff, decode_eq_ok_iff, hword, hi,
    Option.some_inj, and_iff_left rfl]

/-- A field that is no operand is fixed in all its bits. -/
theorem and_allOnes_eq_zero_iff (n : Nibble) : n &&& 0xF = 0 ↔ n = 0 := by revert n; decide

/-- A field that is an operand is free. -/
theorem and_zero_eq_zero_iff (n : Nibble) : n &&& 0x0 = 0 ↔ n = BitVec.ofNat 4 n.toNat := by simp

/-- The mask operand of CLEAR_ERR leaves the lower half of DATA free. -/
theorem and_upperHalf_eq_zero_iff (w : Word) :
    dataField w &&& 0xC = 0 ↔ dataField w = (0 : BitVec 2) ++ w.extractLsb' 0 2 := by
  have hmask : w.extractLsb' 0 2 = (dataField w).extractLsb' 0 2 := by
    simp [dataField, BitVec.extractLsb'_extractLsb'_of_le]
  have hdata : ∀ n : Nibble, n &&& 0xC = 0 ↔ n = (0 : BitVec 2) ++ n.extractLsb' 0 2 := by decide
  rw [hmask]
  exact hdata (dataField w)

/-- Settles O9, row by row: which of IDX and DATA are operands. -/
theorem decodeAgreesWithMatchAndMask : Obligations.DecodeAgreesWithMatchAndMask := by
  intro w
  have idxFixed := and_allOnes_eq_zero_iff (idxField w)
  have idxFree := and_zero_eq_zero_iff (idxField w)
  have dataFixed := and_allOnes_eq_zero_iff (dataField w)
  have dataFree := and_zero_eq_zero_iff (dataField w)
  have hidx : decide ((idxField w).toNat < 16) = true := decide_eq_true (nibble_toNat_lt _)
  have hdata : decide ((dataField w).toNat < 16) = true := decide_eq_true (nibble_toNat_lt _)
  exact ⟨and_rowMask_eq_iff_decode .nop 0x0 0xF 0xF rfl rfl idxFixed dataFixed,
    and_rowMask_eq_iff_decode (.setLevel _ _) 0x1 0x0 0x0 rfl (Bool.and_eq_true_iff.mpr ⟨hidx, hdata⟩)
      idxFree dataFree,
    and_rowMask_eq_iff_decode (.getLevel _) 0x2 0x0 0xF rfl hidx idxFree dataFixed,
    and_rowMask_eq_iff_decode (.getSwitch _) 0x3 0x0 0xF rfl hidx idxFree dataFixed,
    and_rowMask_eq_iff_decode .readPress 0x4 0xF 0xF rfl rfl idxFixed dataFixed,
    and_rowMask_eq_iff_decode .readRelease 0x5 0xF 0xF rfl rfl idxFixed dataFixed,
    and_rowMask_eq_iff_decode .getStatus 0x6 0xF 0xF rfl rfl idxFixed dataFixed,
    and_rowMask_eq_iff_decode (.clearErr _) 0x7 0xF 0xC rfl rfl idxFixed (and_upperHalf_eq_zero_iff w)⟩

/-! ## The assembler -/

/-- The assembler emits a word exactly for a command whose operands it accepts. -/
theorem assembleCommand_eq_some_iff {p : Params} {i : Instr} {w : Word} :
    assembleCommand p i = some w ↔ asmAccepts p i = true ∧ encodeWord i = some w := by
  simp [assembleCommand]

/-- Settles O50: the assembler accepts only well-formed commands. -/
theorem assembledCommandsDecode : Obligations.AssembledCommandsDecode := by
  intro p i w h
  obtain ⟨haccepts, hw⟩ := assembleCommand_eq_some_iff.mp h
  exact decode_encodeWord (Bool.and_eq_true_iff.mp haccepts).1 hw

/-- SET_LEVEL with four-bit operands, the level at most LEVEL_MAX, is emitted with them as its fields. -/
theorem assembleCommand_setLevel (p : Params) (idx : Nibble) {level : Nat} (hlevel : level < 16)
    (hmax : level ≤ p.levelMax) :
    assembleCommand p (.setLevel idx.toNat level) =
      some (commandWord 0x1 idx (BitVec.ofNat 4 level)) := by
  rw [assembleCommand_eq_some_iff]
  simp [asmAccepts, Instr.wellFormed, encodeWord, hlevel, hmax, idx.isLt]

/-- Settles O49: the pseudo-instructions of the LEDs are SET_LEVEL, with 0 or LEVEL_MAX as the level. -/
theorem pseudoInstructionWords : Obligations.PseudoInstructionWords := by
  intro p idx
  have hfull (n : Nat) (hn : n < 16) (hmax : p.levelMax = n) :
      assembleCommand p (expandPseudo p (.ledFull idx.toNat)) =
        some (commandWord 0x1 idx (BitVec.ofNat 4 n)) := by
    subst hmax
    exact assembleCommand_setLevel p idx hn le_rfl
  refine ⟨assembleCommand_setLevel p idx (by decide) (Nat.zero_le _), fun hp => ?_, fun hp => ?_,
    rfl, rfl, rfl⟩
  · exact hfull 7 (by decide) (by rw [Params.levelMax, hp]; rfl)
  · exact hfull 15 (by decide) (by rw [Params.levelMax, hp]; rfl)

end Sys2Proof.Machine
end

section
/-!
PROOFS. The output ports (30_encoding.md R47), bit by bit.
-/

namespace Sys2Proof.Machine

open Sys2Proof.Config

theorem allBits_getLsbD (n : Nat) (b : Bool) (k : Fin n) : (allBits n b).getLsbD k.val = b := by
  cases b <;> simp [allBits]

theorem ledRowPort_getLsbD (pol : Polarity) (s : State) (r : Fin 3) :
    (ledRowPort pol s).getLsbD r.val = rowLevel pol (s.ledRowOn.getLsbD r.val) := by
  simp only [ledRowPort, BitVec.getLsbD_append]
  fin_cases r <;> simp

theorem swRowEnable_getLsbD (s : State) (r : Fin 3) :
    (swRowEnable s).getLsbD r.val = decide (r.val = s.swRow - 1) := by
  have hrow : s.swRow - 1 < 3 := s.swRowIx.isLt
  simp only [swRowEnable, onehot, BitVec.getLsbD_twoPow, hrow, decide_true, Bool.true_and, eq_comm]

/-- Settles O29: the three ports that are computed bit by bit; the others are elements of the state. -/
theorem outputPortsAreFunctionsOfTheState : Obligations.OutputPortsAreFunctionsOfTheState := fun pol s =>
  ⟨rfl, allBits_getLsbD 4 pol.colActiveLevel, ledRowPort_getLsbD pol s, swRowEnable_getLsbD s,
    rfl, rfl, rfl, rfl, rfl⟩

end Sys2Proof.Machine
end

section
/-!
PROOFS. The event FIFOs (40_event_fifo.md): the write primitive, runs of writes and reads of one FIFO, and
the independence of the two channels.
-/

namespace Sys2Proof.Machine

/-! ## FifoWrite -/

/-- Settles O37: a write into a FIFO with room is `pushEntry`. -/
theorem fifoWriteAppendsOrRaises : Obligations.FifoWriteAppendsOrRaises := by
  intro F v s
  refine ⟨fun hfull => if_pos hfull, fun hroom => ⟨pushEntry (s.fifo F) (BitVec.ofNat 8 v.val),
    if_neg hroom, rfl, nextSlot_val _, rfl, ?_, fun k hk => readCell_writeCell_ne _ _ _ _ hk.symm⟩⟩
  rw [pushEntry, readCell_writeCell_same]
  exact Nat.mod_eq_of_lt (v.isLt.trans (by decide))

/-! ## Runs of FIFO operations -/

theorem acceptedWrites_write_of_full {F : Channel} {s : State} (h : (s.fifo F).count = 12) (v : Cell)
    (ops : List FifoOp) :
    acceptedWrites F (.write v :: ops) s = acceptedWrites F ops (fifoWrite F v s) := by
  simp only [acceptedWrites, if_pos h]; rfl

theorem acceptedWrites_write_of_room {F : Channel} {s : State} (h : (s.fifo F).count ≠ 12) (v : Cell)
    (ops : List FifoOp) :
    acceptedWrites F (.write v :: ops) s =
      BitVec.ofNat 8 v.val :: acceptedWrites F ops (fifoWrite F v s) := by
  simp only [acceptedWrites, if_neg h]; rfl

theorem acceptedWrites_read (F : Channel) (ops : List FifoOp) (s : State) :
    acceptedWrites F (.read :: ops) s = acceptedWrites F ops (fifoReadRespond F s) := rfl

theorem returnedReads_write (F : Channel) (v : Cell) (ops : List FifoOp) (s : State) :
    returnedReads F (.write v :: ops) s = returnedReads F ops (fifoWrite F v s) := rfl

/-- The status field of the response to a read of an empty FIFO is not OK, so nothing is returned. -/
theorem returnedReads_read_of_empty {F : Channel} {s : State} (h : (s.fifo F).count = 0)
    (ops : List FifoOp) :
    returnedReads F (.read :: ops) s = returnedReads F ops (fifoReadRespond F s) := by
  simp [returnedReads, runFifoOp, fifoReadRespond_of_empty h]

/-- The low byte of a response is that of its value (30_encoding.md R49). -/
theorem responseWord_byte (st : Status) (v : Byte) :
    (responseWord st (zext 12 v)).extractLsb' 0 8 = v := by
  apply BitVec.eq_of_getLsbD_eq
  intro k hk
  simp only [responseWord, zext, BitVec.getLsbD_extractLsb', BitVec.getLsbD_append]
  have hk' : k < 12 := hk.trans (by decide)
  simp [hk, hk']

/-- The response to a read of a FIFO with entries is OK, and returns the oldest in its low byte. -/
theorem returnedReads_read_of_cons {F : Channel} {s : State} {v : Byte} {rest : List Byte}
    (hok : (s.fifo F).Ok) (h : (s.fifo F).entries = v :: rest) (ops : List FifoOp) :
    returnedReads F (.read :: ops) s = v :: returnedReads F ops (fifoReadRespond F s) := by
  have hrsp : (fifoReadRespond F s).rsp = responseWord .ok (zext 12 v) :=
    (fifoReadRespond_of_cons hok h).1.trans (responseWord_ok_byte v).symm
  have hstatus : (responseWord .ok (zext 12 v)).extractLsb' 12 4 = 0 := responseWord_status .ok _
  simp only [returnedReads, hrsp, if_pos hstatus, responseWord_byte]
  rfl

/-- Settles O38, by induction on the operations: a write that finds room appends its value, a read that
answers OK takes the first entry off, and no other operation changes the entries. -/
theorem fifoReturnsWritesInOrder : Obligations.FifoReturnsWritesInOrder := by
  intro F ops
  induction ops with
  | nil => exact fun s hok => ⟨List.append_nil _, hok⟩
  | cons op ops ih =>
    intro s hok
    cases op with
    | write v =>
      rw [returnedReads_write]
      obtain ⟨hconserved, hok'⟩ := ih (fifoWrite F v s) (fifoWrite_pushes F v hok).ok
      refine ⟨Eq.trans ?_ hconserved, hok'⟩
      rcases fifoWrite_cases F v s with ⟨hfull, h⟩ | ⟨hroom, h⟩
      · rw [acceptedWrites_write_of_full hfull, h, State.fifo_setErrFull]
      · obtain ⟨-, hentries, -⟩ := pushEntry_ok hok hroom _ (ofNat_cell_lt v)
        rw [acceptedWrites_write_of_room hroom, h, State.fifo_setFifo_same, hentries, List.append_assoc,
          List.singleton_append]
    | read =>
      rw [acceptedWrites_read]
      rcases h : (s.fifo F).entries with _ | ⟨v, rest⟩
      · have hempty := (entries_eq_nil_iff _).mp h
        have hfifo : (fifoReadRespond F s).fifo F = s.fifo F := by
          rw [fifoReadRespond_of_empty hempty]; cases F <;> rfl
        rw [returnedReads_read_of_empty hempty, ← h, ← hfifo]
        exact ih _ (hfifo ▸ hok)
      · obtain ⟨-, hrest, hok'⟩ := fifoReadRespond_of_cons hok h
        obtain ⟨hconserved, hfinal⟩ := ih _ hok'
        rw [returnedReads_read_of_cons hok h, ← hrest]
        exact ⟨congrArg (v :: ·) hconserved, hfinal⟩

/-- A run of writes is a run of pushes. -/
theorem runFifoOps_write_pushes (F : Channel) (vs : List Cell) {s : State} (hok : (s.fifo F).Ok) :
    Pushes F (vs.map fun v => BitVec.ofNat 8 v.val) s (runFifoOps F (vs.map .write) s) := by
  induction vs generalizing s with
  | nil => exact .nil hok rfl rfl
  | cons v vs ih =>
    have hfirst := fifoWrite_pushes F v hok
    exact hfirst.append (ih hfirst.ok)

/-- As many reads as there are entries return them all and leave the FIFO empty. -/
theorem runFifoOps_read_drains {F : Channel} {l : List Byte} {s : State} (hok : (s.fifo F).Ok)
    (h : (s.fifo F).entries = l) :
    returnedReads F (List.replicate l.length .read) s = l ∧
      ((runFifoOps F (List.replicate l.length .read) s).fifo F).count = 0 := by
  induction l generalizing s with
  | nil => exact ⟨rfl, (entries_eq_nil_iff _).mp h⟩
  | cons v rest ih =>
    obtain ⟨-, hrest, hok'⟩ := fifoReadRespond_of_cons hok h
    obtain ⟨hreturned, hempty⟩ := ih hok' hrest
    rw [List.length_cons, List.replicate_succ, returnedReads_read_of_cons hok h, hreturned]
    exact ⟨rfl, hempty⟩

/-- Settles O39: the writes by what pushes do, the reads by draining. -/
theorem fifoCapacityIsTwelve : Obligations.FifoCapacityIsTwelve := by
  refine ⟨fun F s vs v hok hempty hlen => ?_, fun F s hok hfull => ?_⟩
  · have hpushes := runFifoOps_write_pushes F vs hok
    have hstart := (entries_eq_nil_iff _).mpr hempty
    have hflag := hpushes.errFull
    have hentries := hpushes.entries
    rw [hstart, List.nil_append, List.take_of_length_le (by simp [hlen])] at hentries
    refine ⟨by simpa [hstart, hlen] using hflag, hentries, if_pos (BitVec.eq_of_toNat_eq ?_)⟩
    rw [← entries_length, hentries, List.length_map, hlen]
    rfl
  · have hlen : (s.fifo F).entries.length = 12 := by rw [entries_length, hfull]; rfl
    obtain ⟨hreturned, hempty⟩ := runFifoOps_read_drains hok rfl
    rw [hlen] at hreturned hempty
    exact ⟨hreturned, fifoReadRespond_of_empty hempty⟩

/-! ## Independence of the channels -/

/-- `s` with the FIFO and the flag of channel `F` at their reset values: what is left to see when that
channel is not looked at. -/
def withoutChannel (F : Channel) (s : State) : State :=
  (s.setFifo F Fifo.reset).setErrFull F false

@[simp] theorem withoutChannel_last (F : Channel) (s : State) : (withoutChannel F s).last = s.last := by
  simp [withoutChannel]
@[simp] theorem withoutChannel_cnt (F : Channel) (s : State) : (withoutChannel F s).cnt = s.cnt := by
  simp [withoutChannel]
@[simp] theorem withoutChannel_conf (F : Channel) (s : State) : (withoutChannel F s).conf = s.conf := by
  simp [withoutChannel]
@[simp] theorem withoutChannel_swRowIx (F : Channel) (s : State) :
    (withoutChannel F s).swRowIx = s.swRowIx := by simp [withoutChannel]
@[simp] theorem withoutChannel_set (F : Channel) (s : State) (f : Fifo) (e : Bool) :
    withoutChannel F ((s.setFifo F f).setErrFull F e) = withoutChannel F s := by cases F <;> rfl
@[simp] theorem withoutChannel_withoutChannel (F : Channel) (s : State) :
    withoutChannel F (withoutChannel F s) = withoutChannel F s := withoutChannel_set F s _ _

/-- States that look alike without a channel differ in that channel only. -/
theorem eq_set_of_withoutChannel_eq {F : Channel} {s u : State}
    (h : withoutChannel F u = withoutChannel F s) :
    u = (s.setFifo F (u.fifo F)).setErrFull F (u.errFull F) :=
  calc u = ((withoutChannel F u).setFifo F (u.fifo F)).setErrFull F (u.errFull F) := by cases F <;> rfl
    _ = ((withoutChannel F s).setFifo F (u.fifo F)).setErrFull F (u.errFull F) := by rw [h]
    _ = (s.setFifo F (u.fifo F)).setErrFull F (u.errFull F) := by cases F <;> rfl

/-- What channel `F` holds before `φ` has no part in what `φ` does to the rest of the state. -/
def IgnoresChannel (F : Channel) (φ : State → State) : Prop :=
  ∀ s, withoutChannel F (φ s) = withoutChannel F (φ (withoutChannel F s))

namespace IgnoresChannel

variable {F : Channel} {φ ψ : State → State}

/-- A change of the state that neither reads nor writes the channel. -/
theorem of_commutes (h : ∀ s, withoutChannel F (φ s) = φ (withoutChannel F s)) : IgnoresChannel F φ :=
  fun s => by rw [h, h, withoutChannel_withoutChannel]

theorem comp (hφ : IgnoresChannel F φ) (hψ : IgnoresChannel F ψ) : IgnoresChannel F (φ ∘ ψ) := fun s =>
  calc withoutChannel F (φ (ψ s)) = withoutChannel F (φ (withoutChannel F (ψ s))) := hφ _
    _ = withoutChannel F (φ (withoutChannel F (ψ (withoutChannel F s)))) := by rw [hψ]
    _ = withoutChannel F (φ (ψ (withoutChannel F s))) := (hφ _).symm

end IgnoresChannel

/-- A FifoWrite changes its own channel only. -/
theorem withoutChannel_fifoWrite_same (F : Channel) (v : Cell) (s : State) :
    withoutChannel F (fifoWrite F v s) = withoutChannel F s := by
  rcases fifoWrite_cases F v s with ⟨_, h⟩ | ⟨_, h⟩ <;> rw [h] <;> cases F <;> rfl

theorem Channel.ne_iff {F G : Channel} :
    G ≠ F ↔ F = .press ∧ G = .release ∨ F = .release ∧ G = .press := by
  cases F <;> cases G <;> decide

/-- A FifoWrite neither reads nor writes the other channel. -/
theorem withoutChannel_fifoWrite_ne {F G : Channel} (hne : G ≠ F) (v : Cell) (s : State) :
    withoutChannel F (fifoWrite G v s) = fifoWrite G v (withoutChannel F s) := by
  have hfifo : (withoutChannel F s).fifo G = s.fifo G := by
    rw [withoutChannel, State.fifo_setErrFull, State.fifo_setFifo_ne s F G _ hne]
  rw [fifoWrite, fifoWrite, hfifo]
  obtain ⟨rfl, rfl⟩ | ⟨rfl, rfl⟩ := Channel.ne_iff.mp hne
  · split <;> rfl
  · split <;> rfl

theorem fifoWrite_ignoresChannel (F G : Channel) (v : Cell) : IgnoresChannel F (fifoWrite G v) := by
  by_cases hne : G = F
  · subst hne
    intro s
    rw [withoutChannel_fifoWrite_same, withoutChannel_fifoWrite_same, withoutChannel_withoutChannel]
  · exact .of_commutes (withoutChannel_fifoWrite_ne hne v)

theorem acceptTransition_ignoresChannel (F : Channel) (i : Cell) (v : Bool) :
    IgnoresChannel F (acceptTransition i v) :=
  (fifoWrite_ignoresChannel F (eventChannel v) i).comp
    (.of_commutes (φ := fun s => { s with conf := writeCell s.conf i v }) fun s => by cases F <;> rfl)

/-- Debounce chooses its step by the switch grids alone. -/
theorem debounce_ignoresChannel (F : Channel) (i : Cell) (v : Bool) : IgnoresChannel F (debounce i v) := by
  intro s
  simp only [debounce, State.target, withoutChannel_last, withoutChannel_cnt, withoutChannel_conf]
  split_ifs
  · exact IgnoresChannel.of_commutes (φ := noteChange i v) (fun t => by cases F <;> rfl) s
  · exact IgnoresChannel.of_commutes (φ := countStable i) (fun t => by cases F <;> rfl) s
  · exact acceptTransition_ignoresChannel F i v s
  · exact (withoutChannel_withoutChannel F s).symm

theorem scanRow_ignoresChannel (F : Channel) (r : Fin 3) (cols : Nibble) :
    IgnoresChannel F (scanRow r cols) :=
  have hdeb := debounce_ignoresChannel F
  (((hdeb _ _).comp (hdeb _ _)).comp (hdeb _ _)).comp (hdeb _ _)

theorem swTick_ignoresChannel (F : Channel) (cols : Nibble) : IgnoresChannel F (swTick cols) := by
  intro s
  have hrow : IgnoresChannel F fun t => { t with swRowIx := nextRow s.swRowIx } :=
    .of_commutes fun t => by cases F <;> rfl
  rw [swTick, swTick, withoutChannel_swRowIx]
  exact hrow.comp (scanRow_ignoresChannel F s.swRowIx cols) s

/-- The next state of an SW_TICK, where one channel of the state is replaced: the same but for that channel. -/
theorem swTick_set (F : Channel) (cols : Nibble) (s : State) (f : Fifo) (e : Bool) :
    ∃ f' e', swTick cols ((s.setFifo F f).setErrFull F e) =
      ((swTick cols s).setFifo F f').setErrFull F e' := by
  have hig := swTick_ignoresChannel F cols
  refine ⟨_, _, eq_set_of_withoutChannel_eq ?_⟩
  rw [hig, withoutChannel_set, ← hig]

/-- Settles O35: SW_TICK ignores each channel, on the way to the rest of the state. -/
theorem releaseChannelNeverAffectsThePressPath :
    Obligations.ReleaseChannelNeverAffectsThePressPath := by
  intro s t cols f e h
  cases h
  obtain ⟨fr, er, hrelease⟩ := swTick_set .release cols s f e
  obtain ⟨fp, ep, hpress⟩ := swTick_set .press cols s f e
  exact ⟨⟨fr, er, congrArg Host.Outcome.next hrelease⟩, fp, ep, congrArg Host.Outcome.next hpress⟩

end Sys2Proof.Machine
end

section
/-!
PROOFS. The switch scanner (41_switch_scanner.md): one cell as a machine of its own that sees only its samples,
the slots a tick fills, and the run of equal samples that confirms a transition.
-/

namespace Sys2Proof.Machine

open Sys2Proof.Config

/-! ## One switch cell -/

/-- What Debounce reads and writes of one switch cell (10_state.md R18, R19, R20). -/
structure SwitchCell where
  /-- The raw level at the last scan. -/
  last : Bool
  /-- The debounce counter. -/
  count : Nat
  /-- The confirmed state. -/
  conf : Bool

/-- Cell `i` of the three switch grids. -/
def switchCell (i : Cell) (s : State) : SwitchCell :=
  { last := readCell s.last i, count := readCount s.cnt i, conf := readCell s.conf i }

namespace SwitchCell

variable {T : Nat} {raw v : Bool} {x : SwitchCell}

/-- The cell after a sample that reads `raw`, with the debounce target `T` (41_switch_scanner.md R71). -/
def sample (T : Nat) (x : SwitchCell) (raw : Bool) : SwitchCell :=
  if raw ≠ x.last then { x with last := raw, count := 0 }
  else if x.count < T then { x with count := x.count + 1 }
  else { x with conf := raw }

theorem sample_of_change (h : raw ≠ x.last) : x.sample T raw = { x with last := raw, count := 0 } :=
  if_pos h

theorem sample_of_lt (h : raw = x.last) (hlt : x.count < T) :
    x.sample T raw = { x with last := raw, count := x.count + 1 } := by
  rw [sample, if_neg (not_not.mpr h), if_pos hlt, h]

theorem sample_of_le (h : raw = x.last) (hle : T ≤ x.count) :
    x.sample T raw = { x with last := raw, conf := raw } := by
  rw [sample, if_neg (not_not.mpr h), if_neg (Nat.not_lt.mpr hle), ← h]

/-- Whether a sample that reads `raw` confirms a transition to `v`. -/
def confirmsTo (T : Nat) (x : SwitchCell) (raw v : Bool) : Bool :=
  raw == v && x.last == v && decide (T ≤ x.count) && x.conf != v

theorem confirmsTo_iff :
    x.confirmsTo T raw v = true ↔ raw = v ∧ x.last = v ∧ T ≤ x.count ∧ x.conf ≠ v := by
  simp [confirmsTo, and_assoc]

/-- How many samples of a run confirm a transition to `v`. -/
def confirmations (T : Nat) (v : Bool) : List Bool → SwitchCell → Nat
  | [], _ => 0
  | raw :: rest, x =>
    (if x.confirmsTo T raw v then 1 else 0) + confirmations T v rest (x.sample T raw)

theorem sample_below_target {m : Nat} (h : m < T) (c : Bool) :
    sample T { last := v, count := m, conf := c } v = { last := v, count := m + 1, conf := c } :=
  sample_of_lt rfl h

theorem sample_at_target (c : Bool) :
    sample T { last := v, count := T, conf := c } v = { last := v, count := T, conf := v } :=
  sample_of_le rfl le_rfl

/-- A stable run of `n` samples counts on to the target, and then takes its reading as the confirmed state. -/
theorem foldl_sample_replicate {m : Nat} (hm : m ≤ T) (c : Bool) (n : Nat) :
    (List.replicate n v).foldl (sample T) { last := v, count := m, conf := c } =
      { last := v, count := min (m + n) T, conf := if T < m + n then v else c } := by
  induction n generalizing m c with
  | zero => simp [hm]
  | succ n ih =>
    rw [List.replicate_succ, List.foldl_cons]
    rcases Nat.lt_or_eq_of_le hm with hlt | rfl
    · rw [sample_below_target hlt, ih hlt, Nat.succ_add_eq_add_succ]
    · rw [sample_at_target, ih le_rfl]
      simp

/-- A stable run confirms its reading once, where it reaches the target and the confirmed state is another. -/
theorem confirmations_replicate {m : Nat} (hm : m ≤ T) (c : Bool) (n : Nat) :
    confirmations T v (List.replicate n v) { last := v, count := m, conf := c } =
      if T < m + n ∧ c ≠ v then 1 else 0 := by
  induction n generalizing m c with
  | zero => simp [confirmations, hm]
  | succ n ih =>
    rw [List.replicate_succ, confirmations]
    simp only [confirmsTo_iff, true_and]
    rcases Nat.lt_or_eq_of_le hm with hlt | rfl
    · rw [sample_below_target hlt, ih hlt, if_neg fun h => Nat.not_le.mpr hlt h.1, Nat.zero_add,
        Nat.succ_add_eq_add_succ]
    · rw [sample_at_target, ih le_rfl]
      simp

/-- No sample confirms a transition to the value it does not read. -/
theorem confirmations_replicate_not (n : Nat) :
    confirmations T (!v) (List.replicate n v) x = 0 := by
  induction n generalizing x with
  | zero => rfl
  | succ n ih => simp [List.replicate_succ, confirmations, confirmsTo, ih]

end SwitchCell

/-! ## One SW_TICK, cell by cell -/

theorem confirmsCell_eq_confirmsTo (i : Cell) (raw v : Bool) (s : State) :
    confirmsCell i raw v s = (switchCell i s).confirmsTo s.target raw v := rfl

theorem confirms_eq_confirmsCell (s : State) (cols : Nibble) (v : Bool) (c : Fin 4) :
    confirms s cols v c = confirmsCell (cellAt s.swRowIx c) (cols.getLsbD c.val) v s := rfl

theorem switchCell_fifoWrite (i : Cell) (F : Channel) (v : Cell) (s : State) :
    switchCell i (fifoWrite F v s) = switchCell i s := by rw [fifoWrite_frame]; rfl

/-- Debounce of a cell is one sample of it. -/
theorem switchCell_debounce_same (i : Cell) (raw : Bool) (s : State) :
    switchCell i (debounce i raw s) = (switchCell i s).sample s.target raw := by
  rcases debounce_cases i raw s with ⟨hraw, h⟩ | ⟨hraw, hcnt, h⟩ | ⟨hraw, hcnt, _, h⟩ |
    ⟨hraw, hcnt, hconf, h⟩ <;> rw [h]
  · rw [SwitchCell.sample_of_change hraw]
    simp [switchCell, readCount_writeCount_same]
  · rw [SwitchCell.sample_of_lt hraw hcnt]
    simp [switchCell, hraw, readCount_writeCount_same s.cnt i (Nat.succ_le_of_lt hcnt)]
  · rw [SwitchCell.sample_of_le hraw hcnt, acceptTransition, switchCell_fifoWrite]
    simp [switchCell, hraw]
  · rw [SwitchCell.sample_of_le hraw hcnt]
    simp [switchCell, hconf, ← hraw]

theorem switchCell_debounce_ne {i j : Cell} (hne : i ≠ j) (raw : Bool) (s : State) :
    switchCell j (debounce i raw s) = switchCell j s := by
  rcases debounce_cases i raw s with ⟨_, h⟩ | ⟨_, _, h⟩ | ⟨_, _, _, h⟩ | ⟨_, _, _, h⟩ <;> rw [h]
  · simp [switchCell, readCell_writeCell_ne _ _ _ _ hne, readCount_writeCount_ne _ _ hne]
  · simp [switchCell, readCount_writeCount_ne _ _ hne]
  · rw [acceptTransition, switchCell_fifoWrite]
    simp [switchCell, readCell_writeCell_ne _ _ _ _ hne]

theorem debounce_target (i : Cell) (raw : Bool) (s : State) : (debounce i raw s).target = s.target :=
  congrArg Params.debounceTarget (debounce_params i raw s)

theorem swTick_target (cols : Nibble) (s : State) : (swTick cols s).target = s.target :=
  congrArg Params.debounceTarget (swTick_params cols s)

theorem swTick_swRowIx (cols : Nibble) (s : State) :
    (swTick cols s).swRowIx = nextRow s.swRowIx := rfl

theorem switchCell_foldl_debounce_of_forall_ne {r : Fin 3} {j : Cell} (cols : Nibble) {cs : List (Fin 4)}
    (hcs : ∀ c ∈ cs, cellAt r c ≠ j) (s : State) :
    switchCell j (cs.foldl (fun t c => debounce (cellAt r c) (cols.getLsbD c.val) t) s) =
      switchCell j s := by
  induction cs generalizing s with
  | nil => rfl
  | cons c cs ih =>
    obtain ⟨hc, hcs⟩ := List.forall_mem_cons.mp hcs
    rw [List.foldl_cons, ih hcs, switchCell_debounce_ne hc]

/-- The scan of some columns of a row is one sample of each of their cells. -/
theorem switchCell_foldl_debounce_of_mem (r : Fin 3) {c : Fin 4} (cols : Nibble) {cs : List (Fin 4)}
    (hcs : cs.Nodup) (hc : c ∈ cs) (s : State) :
    switchCell (cellAt r c) (cs.foldl (fun t d => debounce (cellAt r d) (cols.getLsbD d.val) t) s) =
      (switchCell (cellAt r c) s).sample s.target (cols.getLsbD c.val) := by
  induction cs generalizing s with
  | nil => cases hc
  | cons d cs ih =>
    obtain ⟨hd, hcs⟩ := List.nodup_cons.mp hcs
    rw [List.foldl_cons]
    rcases List.mem_cons.mp hc with rfl | hc
    · rw [switchCell_foldl_debounce_of_forall_ne cols
          (fun e he h => hd (by rwa [← (cellAt_inj h).2])), switchCell_debounce_same]
    · rw [ih hcs hc, debounce_target,
        switchCell_debounce_ne fun h => hd (by rwa [(cellAt_inj h).2])]

/-- SW_TICK samples each cell of the scanned row (41_switch_scanner.md R70). -/
theorem switchCell_swTick_cellAt (cols : Nibble) (c : Fin 4) (s : State) :
    switchCell (cellAt s.swRowIx c) (swTick cols s) =
      (switchCell (cellAt s.swRowIx c) s).sample s.target (cols.getLsbD c.val) :=
  switchCell_foldl_debounce_of_mem s.swRowIx cols (by decide)
    (show c ∈ [0, 1, 2, 3] by revert c; decide) s

/-- SW_TICK leaves the cells of the other rows alone. -/
theorem switchCell_swTick_of_row_ne {j : Cell} {s : State} (hrow : rowOf j ≠ s.swRowIx) (cols : Nibble) :
    switchCell j (swTick cols s) = switchCell j s :=
  switchCell_foldl_debounce_of_forall_ne cols (fun c _ h => hrow (by rw [← h, rowOf_cellAt])) s

/-- The row cursor at the values the spec gives it: 1, 2, 3, 1 (41_switch_scanner.md R75). -/
theorem nextRow_swRow (r : Fin 3) :
    (nextRow r).val + 1 = if r.val + 1 = 3 then 1 else r.val + 1 + 1 := by revert r; decide

/-- Settles O31: SW_TICK is one sample of each cell of the scanned row. -/
theorem swTickDebouncesTheScannedRow : Obligations.SwTickDebouncesTheScannedRow := by
  intro s cols
  refine ⟨swTick cols s, rfl, fun c => ?_, fun j hrow => ?_, ?_, swTick_target cols s, ?_⟩
  · have hcell := switchCell_swTick_cellAt cols c s
    refine ⟨fun h => ?_, fun h hlt => ?_, fun h hle => ?_⟩
    · exact SwitchCell.mk.inj (hcell.trans (SwitchCell.sample_of_change h))
    · exact SwitchCell.mk.inj (hcell.trans (SwitchCell.sample_of_lt h hlt))
    · exact SwitchCell.mk.inj (hcell.trans (SwitchCell.sample_of_le h hle))
  · exact SwitchCell.mk.inj (switchCell_swTick_of_row_ne hrow cols)
  · exact nextRow_swRow s.swRowIx
  · exact swTick_frame cols s

/-! ## The slots a tick fills -/

/-- One push that finds room, of the byte of a cell (40_event_fifo.md R61). -/
def Fifo.PushStep (f g : Fifo) : Prop :=
  f.count ≠ 12 ∧ ∃ v : Byte, v.toNat < 12 ∧ g = pushEntry f v

theorem fifoWrite_pushSteps (F G : Channel) (v : Cell) (s : State) :
    Relation.ReflTransGen Fifo.PushStep (s.fifo G) ((fifoWrite F v s).fifo G) := by
  rcases fifoWrite_cases F v s with ⟨_, h⟩ | ⟨hc, h⟩ <;> rw [h]
  · rw [State.fifo_setErrFull]
  · by_cases hG : G = F
    · subst hG
      rw [State.fifo_setFifo_same]
      exact .single ⟨hc, _, ofNat_cell_lt v, rfl⟩
    · rw [State.fifo_setFifo_ne s F G _ hG]

theorem debounce_pushSteps (i : Cell) (v : Bool) (G : Channel) (s : State) :
    Relation.ReflTransGen Fifo.PushStep (s.fifo G) ((debounce i v s).fifo G) := by
  rcases debounce_cases i v s with ⟨_, h⟩ | ⟨_, _, h⟩ | ⟨_, _, _, h⟩ | ⟨_, _, _, h⟩ <;> rw [h]
  · rw [fifo_noteChange]
  · rw [fifo_countStable]
  · have hconf : ({ s with conf := writeCell s.conf i v } : State).fifo G = s.fifo G := by
      cases G <;> rfl
    exact hconf ▸ fifoWrite_pushSteps (eventChannel v) G i { s with conf := writeCell s.conf i v }

/-- SW_TICK changes a FIFO by pushes that find room, and by nothing else. -/
theorem swTick_pushSteps (cols : Nibble) (G : Channel) (s : State) :
    Relation.ReflTransGen Fifo.PushStep (s.fifo G) ((swTick cols s).fifo G) := by
  have hdeb := fun i v => debounce_pushSteps i v G
  have hscan : Relation.ReflTransGen Fifo.PushStep (s.fifo G) ((scanRow s.swRowIx cols s).fifo G) :=
    (((hdeb _ _ _).trans (hdeb _ _ _)).trans (hdeb _ _ _)).trans (hdeb _ _ _)
  have hfifo : (swTick cols s).fifo G = (scanRow s.swRowIx cols s).fifo G := by cases G <;> rfl
  rwa [hfifo]

/-- `g` is a FIFO that meets its invariant, with the head of `f` and with the bytes of `f` in every slot but
those from the tail of `f` on that it holds more entries in. -/
structure Fifo.Fills (f g : Fifo) : Prop where
  ok : g.Ok
  head : g.head = f.head
  count_le : f.count.toNat ≤ g.count.toNat
  mem : ∀ k : Cell, (∀ j, j < g.count.toNat - f.count.toNat → k.val ≠ (f.tail.val + j) % 12) →
    readCell g.mem k = readCell f.mem k

theorem Fifo.Fills.push {f g h : Fifo} (hf : f.Ok) (hfills : f.Fills g) (hpush : g.PushStep h) :
    f.Fills h := by
  obtain ⟨hc, v, hv, rfl⟩ := hpush
  obtain ⟨hok, -, hcount⟩ := pushEntry_ok hfills.ok hc v hv
  have hle := hfills.count_le
  have hftail : f.tail.val = (f.head.val + f.count.toNat) % 12 := congrArg Fin.val hf.tail_eq
  have hgtail : g.tail.val = (f.head.val + g.count.toNat) % 12 := by
    rw [hfills.ok.tail_eq, slotAt_val, hfills.head]
  refine ⟨hok, hfills.head, by omega, fun k hk => ?_⟩
  have hkept := hfills.mem k fun j hj => hk j (by omega)
  have hnew := hk (g.count.toNat - f.count.toNat) (by omega)
  have hne : g.tail ≠ k := by
    rintro rfl
    omega
  exact (readCell_writeCell_ne _ _ _ _ hne).trans hkept

theorem Fifo.Fills.of_pushSteps {f g : Fifo} (hf : f.Ok)
    (h : Relation.ReflTransGen Fifo.PushStep f g) : f.Fills g := by
  induction h with
  | refl => exact ⟨hf, rfl, le_rfl, fun _ _ => rfl⟩
  | tail _ hpush ih => exact ih.push hf hpush

/-- A cell that confirms a transition to `v` holds `v` afterwards, with room in the FIFO or without. -/
theorem conf_swTick_of_confirms {s : State} {cols : Nibble} {v : Bool} {c : Fin 4}
    (h : confirms s cols v c = true) : readCell (swTick cols s).conf (cellAt s.swRowIx c) = v := by
  obtain ⟨hraw, hlast, hcount, -⟩ := (confirmsCell_iff _ _ _ _).mp h
  have hcell := switchCell_swTick_cellAt cols c s
  rw [SwitchCell.sample_of_le (hraw.trans hlast.symm) hcount] at hcell
  exact (congrArg SwitchCell.conf hcell).trans hraw

/-- Settles O32: the pushes of the tick, the confirmed states and the slots filled. -/
theorem swTickPushesTheConfirmedTransitions : Obligations.SwTickPushesTheConfirmedTransitions := by
  intro s cols hok
  refine ⟨swTick cols s, rfl, fun v => ?_⟩
  have hpushes := swTick_pushes cols v (hok (eventChannel v))
  have hfills := Fifo.Fills.of_pushSteps (hok (eventChannel v)) (swTick_pushSteps cols _ s)
  exact ⟨hpushes.ok, hpushes.entries, hpushes.errFull, fun _ => conf_swTick_of_confirms,
    hfills.head, hfills.mem⟩

/-! ## Runs of SW_TICKs, as the samples of one cell -/

/-- The samples that cell `i` sees of the readings `reads`, where row `r` is scanned next. -/
def samplesOf (i : Cell) : Fin 3 → List Nibble → List Bool
  | _, [] => []
  | r, cols :: rest =>
    (if r = rowOf i then [cols.getLsbD (colOf i).val] else []) ++ samplesOf i (nextRow r) rest

theorem samplesOf_cons_of_eq {i : Cell} {r : Fin 3} (h : r = rowOf i) (cols : Nibble)
    (rest : List Nibble) :
    samplesOf i r (cols :: rest) = cols.getLsbD (colOf i).val :: samplesOf i (nextRow r) rest := by
  rw [samplesOf, if_pos h]; rfl

theorem samplesOf_cons_of_ne {i : Cell} {r : Fin 3} (h : r ≠ rowOf i) (cols : Nibble)
    (rest : List Nibble) : samplesOf i r (cols :: rest) = samplesOf i (nextRow r) rest := by
  rw [samplesOf, if_neg h]; rfl

theorem switchCell_swTick_of_row {i : Cell} {s : State} (h : s.swRowIx = rowOf i) (cols : Nibble) :
    switchCell i (swTick cols s) = (switchCell i s).sample s.target (cols.getLsbD (colOf i).val) := by
  have hcell := switchCell_swTick_cellAt cols (colOf i) s
  rwa [h, cellAt_rowOf_colOf] at hcell

/-- A run of SW_TICKs completes, and takes a cell through its samples. -/
theorem swTicks_samples (i : Cell) (reads : List Nibble) (s : State) :
    ∃ t, swTicks reads s = .next t ∧ switchCell i t =
      (samplesOf i s.swRowIx reads).foldl (SwitchCell.sample s.target) (switchCell i s) := by
  induction reads generalizing s with
  | nil => exact ⟨s, rfl, rfl⟩
  | cons cols rest ih =>
    obtain ⟨t, hrun, hcell⟩ := ih (swTick cols s)
    refine ⟨t, hrun, hcell.trans ?_⟩
    rw [swTick_target, swTick_swRowIx]
    by_cases hrow : s.swRowIx = rowOf i
    · rw [samplesOf_cons_of_eq hrow, List.foldl_cons, switchCell_swTick_of_row hrow]
    · rw [samplesOf_cons_of_ne hrow, switchCell_swTick_of_row_ne (Ne.symm hrow)]

theorem confirmCount_cons (i : Cell) (v : Bool) (cols : Nibble) (rest : List Nibble) (s : State) :
    confirmCount i v (cols :: rest) s =
      (if s.swRowIx = rowOf i ∧ confirms s cols v (colOf i) then 1 else 0) +
        confirmCount i v rest (swTick cols s) := rfl

/-- The transitions a run confirms at a cell are those its samples confirm. -/
theorem confirmCount_eq_confirmations (i : Cell) (v : Bool) (reads : List Nibble) (s : State) :
    confirmCount i v reads s =
      SwitchCell.confirmations s.target v (samplesOf i s.swRowIx reads) (switchCell i s) := by
  induction reads generalizing s with
  | nil => rfl
  | cons cols rest ih =>
    rw [confirmCount_cons, ih, swTick_target, swTick_swRowIx]
    by_cases hrow : s.swRowIx = rowOf i
    · have hconf : confirms s cols v (colOf i) =
          (switchCell i s).confirmsTo s.target (cols.getLsbD (colOf i).val) v := by
        rw [confirms_eq_confirmsCell, hrow, cellAt_rowOf_colOf, confirmsCell_eq_confirmsTo]
      rw [samplesOf_cons_of_eq hrow, SwitchCell.confirmations, switchCell_swTick_of_row hrow, hconf]
      simp only [hrow, true_and]
    · rw [samplesOf_cons_of_ne hrow, switchCell_swTick_of_row_ne (Ne.symm hrow),
        if_neg fun h => hrow h.1, Nat.zero_add]

theorem nextRow_ne (r : Fin 3) : nextRow r ≠ r := by revert r; decide
theorem nextRow_nextRow_ne (r : Fin 3) : nextRow (nextRow r) ≠ r := by revert r; decide
theorem nextRow_nextRow_nextRow (r : Fin 3) : nextRow (nextRow (nextRow r)) = r := by revert r; decide

/-- The samples of a cell are three ticks apart (41_switch_scanner.md R79). -/
theorem samplesOf_eq_replicate (i : Cell) (v : Bool) (n : Nat) (reads : List Nibble)
    (hlen : reads.length = 3 * n + 1)
    (hv : ∀ k, k ≤ n → (reads.getD (3 * k) 0).getLsbD (colOf i).val = v) :
    samplesOf i (rowOf i) reads = List.replicate (n + 1) v := by
  induction n generalizing reads with
  | zero =>
    obtain ⟨cols, rfl⟩ := List.length_eq_one_iff.mp hlen
    rw [samplesOf_cons_of_eq rfl, show cols.getLsbD (colOf i).val = v from hv 0 le_rfl]
    rfl
  | succ n ih =>
    match reads, hlen with
    | a :: b :: c :: rest, hlen =>
      rw [samplesOf_cons_of_eq rfl, samplesOf_cons_of_ne (nextRow_ne _),
        samplesOf_cons_of_ne (nextRow_nextRow_ne _), nextRow_nextRow_nextRow,
        show a.getLsbD (colOf i).val = v from hv 0 (Nat.zero_le _),
        ih rest (by simp only [List.length_cons] at hlen; omega)
          fun k hk => by simpa [Nat.mul_add] using hv (k + 1) (Nat.succ_le_succ hk)]
      rfl

/-- Settles O33: the first sample of the run zeroes the counter, and the `n` that follow are a stable run. -/
theorem transitionTakesTPlusTwoSamples : Obligations.TransitionTakesTPlusTwoSamples := by
  intro s i v n reads hlen hrow hlast hv
  have hsamples : samplesOf i s.swRowIx reads = v :: List.replicate n v :=
    hrow ▸ samplesOf_eq_replicate i v n reads hlen hv
  have hfirst : (switchCell i s).sample s.target v =
      { last := v, count := 0, conf := readCell s.conf i } := SwitchCell.sample_of_change hlast.symm
  obtain ⟨t, hrun, hcell⟩ := swTicks_samples i reads s
  rw [hsamples, List.foldl_cons, hfirst,
    SwitchCell.foldl_sample_replicate (Nat.zero_le _), Nat.zero_add] at hcell
  obtain ⟨hlast', hcount', hconf'⟩ := SwitchCell.mk.inj hcell
  refine ⟨t, hrun, hlast', hcount', hconf', ?_, ?_⟩
  · have hnot : ¬ (switchCell i s).confirmsTo s.target v v = true := by
      rw [SwitchCell.confirmsTo_iff]
      exact fun ⟨_, hsame, _⟩ => hlast hsame
    rw [confirmCount_eq_confirmations, hsamples, SwitchCell.confirmations, if_neg hnot, hfirst,
      SwitchCell.confirmations_replicate (Nat.zero_le _), Nat.zero_add, Nat.zero_add]
    rfl
  · rw [confirmCount_eq_confirmations, hsamples]
    exact SwitchCell.confirmations_replicate_not (n + 1)

end Sys2Proof.Machine
end

section
/-!
PROOFS. The LED multiplexer (42_led_multiplexer.md): its lines, the refresh phase that counts the LED_TICKs, and
the phases at which an LED is lit.
-/

namespace Sys2Proof.Machine

open Sys2Proof.Config

/-! ## The lines of the LED matrix -/

theorem onehot_getLsbD {n : Nat} (k j : Fin n) :
    (onehot n k.val).getLsbD j.val = decide (j.val = k.val) := by
  rw [onehot, BitVec.getLsbD_twoPow, decide_eq_true k.isLt, Bool.true_and]
  exact decide_eq_decide.mpr eq_comm

theorem ledColLine_eq (pol : Polarity) (s : State) (c : Fin 4) :
    ledColLine pol s c =
      if s.ledColEn.getLsbD c.val then .driven pol.colActiveLevel else .highZ := by
  simp only [ledColLine, outputs, allBits_getLsbD, lineOf]

theorem ledRowLine_eq (pol : Polarity) (s : State) (r : Fin 3) :
    ledRowLine pol s r = .driven (rowLevel pol (s.ledRowOn.getLsbD r.val)) := by
  simp only [ledRowLine, outputs, ledRowPort_getLsbD]

/-! ## One LED_TICK -/

/-- The row outputs of a tick, bit by bit (42_led_multiplexer.md R84). -/
theorem ledTick_ledRowOn_getLsbD (s : State) (r : Fin 3) :
    (ledTick s).ledRowOn.getLsbD r.val =
      decide (s.subFrame ≤ readLevel s.lvl (cellAt r s.ledColIx)) :=
  rowPattern_getLsbD s r

/-- The column enable of a tick, bit by bit (42_led_multiplexer.md R83). -/
theorem ledTick_ledColEn_getLsbD (s : State) (c : Fin 4) :
    (ledTick s).ledColEn.getLsbD c.val = decide (c.val = s.ledColIx.val) :=
  onehot_getLsbD s.ledColIx c

theorem nextCol_val (c : Fin 4) : (nextCol c).val = if c.val = 3 then 0 else c.val + 1 := by
  revert c; decide

theorem nextSubFrame_val (f : Fin 8) :
    (nextSubFrame f).val = if f.val = 7 then 0 else f.val + 1 := by
  revert f; decide

/-- The column cursor advances in every tick (42_led_multiplexer.md R85). -/
theorem ledTick_ledCol (s : State) :
    (ledTick s).ledCol = if s.ledCol = 4 then 1 else s.ledCol + 1 := by
  simp only [State.ledCol, ledTick_ledColIx, nextCol_val]
  split_ifs <;> omega

/-- The sub-frame advances where the column wraps (42_led_multiplexer.md R85). -/
theorem ledTick_subFrame (s : State) :
    (ledTick s).subFrame =
      if s.ledCol = 4 then (if s.subFrame = 8 then 1 else s.subFrame + 1) else s.subFrame := by
  simp only [State.subFrame, ledTick_subFrameIx]
  split
  · rw [nextSubFrame_val]
    split_ifs <;> omega
  · rfl

/-- Settles O24: the row pattern and the column enable bit by bit, and the two cursors. -/
theorem ledTickDrivesTheCursorsColumn : Obligations.LedTickDrivesTheCursorsColumn := by
  intro s
  refine ⟨ledTick s, rfl, rfl, ledTick_ledRowOn_getLsbD s, fun c => ?_, ledTick_ledCol s,
    ledTick_subFrame s⟩
  rw [ledTick_ledColEn_getLsbD, decide_eq_decide, Nat.add_right_cancel_iff]

/-- Settles O25: each line by its bit of the column enable or of the row outputs. -/
theorem ledTickLines : Obligations.LedTickLines := by
  intro pol s
  refine ⟨ledTick s, rfl, rfl, ledTick_ledRowOn_getLsbD s, fun c => ?_, fun r => ?_⟩
  · simp only [ledColLine_eq, ledTick_ledColEn_getLsbD, decide_eq_true_eq, Nat.add_right_cancel_iff]
  · simp only [ledRowLine_eq, ledTick_ledRowOn_getLsbD, rowLevel, decide_eq_true_eq]

/-! ## The LED elements over a cycle -/

/-- The cursors and the outputs of the LED multiplexer are the same in both states. -/
structure SameLeds (s t : State) : Prop where
  ledColIx : t.ledColIx = s.ledColIx
  subFrameIx : t.subFrameIx = s.subFrameIx
  ledColEn : t.ledColEn = s.ledColEn
  ledRowOn : t.ledRowOn = s.ledRowOn

theorem SameLeds.trans {s t u : State} (h : SameLeds s t) (h' : SameLeds t u) : SameLeds s u :=
  ⟨h'.ledColIx.trans h.ledColIx, h'.subFrameIx.trans h.subFrameIx, h'.ledColEn.trans h.ledColEn,
    h'.ledRowOn.trans h.ledRowOn⟩

/-- No command writes an LED element but the levels. -/
theorem CommandEffect.sameLeds {s u : State} (h : CommandEffect s u) : SameLeds s u := by
  cases h with
  | unchanged | levelWritten => exact ⟨rfl, rfl, rfl, rfl⟩
  | entryDropped F => cases F <;> exact ⟨rfl, rfl, rfl, rfl⟩
  | flagsCleared press release => cases press <;> cases release <;> exact ⟨rfl, rfl, rfl, rfl⟩

theorem executeWord_sameLeds {w : Word} {s t : State} (h : executeWord w s = .next t) :
    SameLeds s t := by
  cases hd : decode w with
  | error e =>
    cases (executeWord_of_error hd s).symm.trans h
    exact ⟨rfl, rfl, rfl, rfl⟩
  | ok i =>
    obtain ⟨st, v, u, hu, heff⟩ := exec_command_effect i s (encodeWord_isSome_of_decode hd)
    cases (executeWord_of_ok hd s ▸ hu).symm.trans h
    exact heff.sameLeds.trans ⟨rfl, rfl, rfl, rfl⟩

theorem afterSwTick_sameLeds (p : PinsIn) (s : State) : SameLeds s (afterSwTick p s) := by
  cases h : p.swTick with
  | true =>
    rw [afterSwTick_of_swTick h, swTick_frame]
    exact ⟨rfl, rfl, rfl, rfl⟩
  | false =>
    rw [afterSwTick_of_no_swTick h]
    exact ⟨rfl, rfl, rfl, rfl⟩

/-- All a cycle without reset does to the LED elements: its LED_TICK, if it has one. -/
theorem runCycle_leds {p : PinsIn} (s : State) (hr : p.rst = false) :
    ∃ b, SameLeds s b ∧ runCycle p s = .next (afterLedTick p b) := by
  obtain ⟨a, hcommand, hnone, hcycle⟩ := runCycle_eq_afterTicks s hr
  have ha : SameLeds (portIdle s) a := by
    cases hc : p.cmdValid with
    | true => exact executeWord_sameLeds (hcommand hc)
    | false => rw [hnone hc]; exact ⟨rfl, rfl, rfl, rfl⟩
  have hidle : SameLeds s (portIdle s) := ⟨rfl, rfl, rfl, rfl⟩
  exact ⟨_, (hidle.trans ha).trans (afterSwTick_sameLeds p a), hcycle⟩

/-- Settles O28: a cycle writes the LED outputs with its LED_TICK alone, and the reset outputs are 0. -/
theorem ledOutputsHoldBetweenTicks : Obligations.LedOutputsHoldBetweenTicks := by
  refine ⟨fun p s t h hr hled => ?_, fun pol s hs => ⟨fun c => ?_, fun r => ?_⟩⟩
  · obtain ⟨b, hb, hcycle⟩ := runCycle_leds s hr
    cases hcycle.symm.trans h
    rw [afterLedTick_of_no_ledTick hled]
    exact ⟨hb.ledColEn, hb.ledRowOn⟩
  · simp [ledColLine_eq, hs.ledColEn]
  · simp [ledRowLine_eq, hs.ledRowOn, rowLevel]

/-! ## The refresh phase -/

/-- How many LED_TICKs into the refresh of 32 the cursors stand (42_led_multiplexer.md R86). -/
def refreshPhase (s : State) : Nat := s.subFrameIx.val * 4 + s.ledColIx.val

/-- The cursors stand where `n` ticks from reset put them. -/
theorem cursors_iff_refreshPhase (s : State) (n : Nat) :
    s.ledCol = n % 4 + 1 ∧ s.subFrame = n / 4 % 8 + 1 ↔ refreshPhase s = n % 32 := by
  simp only [State.ledCol, State.subFrame, refreshPhase]
  omega

theorem SameLeds.refreshPhase_eq {s t : State} (h : SameLeds s t) :
    refreshPhase t = refreshPhase s := by
  rw [refreshPhase, h.subFrameIx, h.ledColIx, refreshPhase]

/-- A tick moves the cursors on by one phase, from the last one to the first. -/
theorem refreshPhase_ledTick (s : State) :
    refreshPhase (ledTick s) = (refreshPhase s + 1) % 32 := by
  have hcol := ledTick_ledCol s
  have hsub := ledTick_subFrame s
  simp only [State.ledCol, State.subFrame] at hcol hsub
  simp only [refreshPhase]
  split_ifs at hcol hsub <;> omega

/-- Settles O51: the refresh phase counts the cycle's LED_TICK, and nothing else but a reset moves it. -/
theorem everyStepKeepsTheRefreshPhase : Obligations.EveryStepKeepsTheRefreshPhase := by
  intro s t n hcol hsub hstep p m
  have hphase : refreshPhase s = n % 32 := (cursors_iff_refreshPhase s n).mp ⟨hcol, hsub⟩
  suffices h : refreshPhase t = m % 32 ∧
      (p.rst = false → p.ledTick = true → t.ledColEn = onehot 4 (n % 4)) by
    obtain ⟨hnext, hdriven⟩ := h
    obtain ⟨hcol', hsub'⟩ := (cursors_iff_refreshPhase t m).mpr hnext
    exact ⟨hcol', hsub', hdriven⟩
  cases hr : p.rst with
  | true =>
    cases (runCycle_of_rst p _ hr).symm.trans hstep
    exact ⟨by simp only [m, hr]; rfl, nofun⟩
  | false =>
    obtain ⟨b, hb, hcycle⟩ := runCycle_leds (popInput s) hr
    cases hcycle.symm.trans hstep
    have hbphase : refreshPhase b = n % 32 := hb.refreshPhase_eq.trans hphase
    cases hled : p.ledTick with
    | true =>
      have hm : m = n + 1 := by simp [m, hr, hled]
      have hcolIx : b.ledColIx.val = n % 4 := by rw [hb.ledColIx]; exact Nat.succ.inj hcol
      rw [afterLedTick_of_ledTick hled, refreshPhase_ledTick, hbphase, hm, ledTick_ledColEn, hcolIx]
      exact ⟨Nat.mod_add_mod n 32 1, fun _ _ => rfl⟩
    | false =>
      have hm : m = n := by simp [m, hr, hled]
      rw [afterLedTick_of_no_ledTick hled, hm]
      exact ⟨hbphase, nofun⟩

/-! ## Runs of LED_TICKs -/

/-- A run of LED_TICKs completes, moves the cursors on by its length and keeps the levels. -/
theorem ledTicks_next (n : Nat) (s : State) :
    ∃ t, ledTicks n s = .next t ∧ refreshPhase t = (refreshPhase s + n) % 32 ∧ t.lvl = s.lvl := by
  induction n generalizing s with
  | zero =>
    refine ⟨s, rfl, ?_, rfl⟩
    rw [refreshPhase]
    omega
  | succ n ih =>
    obtain ⟨t, hrun, hphase, hlvl⟩ := ih (ledTick s)
    refine ⟨t, hrun, ?_, hlvl⟩
    rw [hphase, refreshPhase_ledTick, Nat.mod_add_mod, Nat.add_right_comm, Nat.add_assoc]

/-- Settles O26: at reset the refresh phase is 0, so after `n` ticks it is `n` modulo 32. -/
theorem ledTickAfterNTicksFromReset : Obligations.LedTickAfterNTicksFromReset := by
  intro levels n
  obtain ⟨s, hrun, hphase, hlvl⟩ := ledTicks_next n { State.reset with lvl := levels }
  obtain ⟨hcol, hsub⟩ := (cursors_iff_refreshPhase s n).mpr
    (hphase.trans (congrArg (· % 32) (Nat.zero_add n)))
  have hcolIx : s.ledColIx.val = n % 4 := Nat.succ.inj hcol
  refine ⟨s, ledTick s, hrun, rfl, hcol, hsub, fun c => ?_, fun r i hi => ?_⟩
  · rw [ledTick_ledColEn_getLsbD, hcolIx]
  · have hcell : cellAt r s.ledColIx = i := Fin.ext (by simp only [cellAt, hcolIx, hi])
    rw [ledTick_ledRowOn_getLsbD, hcell, hsub, hlvl]

/-! ## The phases at which an LED is lit -/

/-- Whether the tick at phase `k` lights an LED of `level` in column `c`. -/
def litAtPhase (level : Nat) (c : Fin 4) (k : Nat) : Bool :=
  decide (k % 4 = c.val ∧ k / 4 % 8 < level)

theorem litAtPhase_mod (level : Nat) (c : Fin 4) (k : Nat) :
    litAtPhase level c (k % 32) = litAtPhase level c k := by
  simp only [litAtPhase, decide_eq_decide]
  omega

theorem lit_ledTick (s : State) (r : Fin 3) (c : Fin 4) :
    lit (ledTick s) r c = litAtPhase (readLevel s.lvl (cellAt r c)) c (refreshPhase s) := by
  have hcol : refreshPhase s % 4 = s.ledColIx.val := by rw [refreshPhase]; omega
  have hsub : refreshPhase s / 4 % 8 = s.subFrameIx.val := by rw [refreshPhase]; omega
  rw [lit, ledTick_ledColEn_getLsbD, ledTick_ledRowOn_getLsbD, litAtPhase, hcol, hsub]
  by_cases h : s.ledColIx = c
  · subst h
    simp [State.subFrame]
  · have hval : s.ledColIx.val ≠ c.val := Fin.val_ne_of_ne h
    simp [hval, hval.symm]

/-- The ticks of a run that light an LED, counted by phase. -/
theorem litCount_eq_count (r : Fin 3) (c : Fin 4) (n : Nat) (s : State) :
    litCount r c n s =
      Nat.count (fun k => litAtPhase (readLevel s.lvl (cellAt r c)) c (refreshPhase s + k)) n := by
  induction n generalizing s with
  | zero => rfl
  | succ n ih =>
    have htail : ∀ k, litAtPhase (readLevel s.lvl (cellAt r c)) c (refreshPhase (ledTick s) + k) =
        litAtPhase (readLevel s.lvl (cellAt r c)) c (refreshPhase s + (k + 1)) := fun k => by
      rw [refreshPhase_ledTick, ← litAtPhase_mod, Nat.mod_add_mod, litAtPhase_mod,
        Nat.add_assoc, Nat.add_comm 1 k]
    have hrun : litCount r c (n + 1) s =
        (if lit (ledTick s) r c then 1 else 0) + litCount r c n (ledTick s) := rfl
    rw [hrun, ih, lit_ledTick, Nat.count_succ', Nat.add_comm]
    simp only [ledTick_lvl, htail, Nat.add_zero]

/-- One sub-frame lights an LED once or not at all. -/
theorem count_litAtPhase_subFrame (level : Nat) (c : Fin 4) {f : Nat} (hf : f < 8) :
    Nat.count (fun k => litAtPhase level c (f * 4 + k)) 4 = if f < level then 1 else 0 := by
  have hlit : ∀ k < 4, litAtPhase level c (f * 4 + k) = decide (k = c.val ∧ f < level) := by
    intro k hk
    rw [litAtPhase, decide_eq_decide]
    omega
  simp only [Nat.count_succ, Nat.count_zero, hlit, Nat.lt_add_one, Nat.reduceLT]
  by_cases h : f < level <;> fin_cases c <;> simp [h]

/-- The first `f` sub-frames of a refresh light an LED in `min(level, f)` ticks. -/
theorem count_litAtPhase_subFrames (level : Nat) (c : Fin 4) {f : Nat} (hf : f ≤ 8) :
    Nat.count (fun k => litAtPhase level c k) (f * 4) = min level f := by
  induction f with
  | zero => simp
  | succ f ih =>
    rw [Nat.succ_mul, Nat.count_add, ih (Nat.le_of_succ_le hf), count_litAtPhase_subFrame level c hf]
    split <;> omega

/-- Any 32 phases in a row light an LED as often as the first 32, as the phases repeat after 32. -/
theorem count_litAtPhase_refresh (level : Nat) (c : Fin 4) (q : Nat) :
    Nat.count (fun k => litAtPhase level c (q + k)) 32 = min level 8 := by
  have hperiod : ∀ k, litAtPhase level c (32 + k) = litAtPhase level c k := fun k => by
    rw [← litAtPhase_mod, Nat.add_mod_left, litAtPhase_mod]
  have hfirst : Nat.count (fun k => litAtPhase level c k) 32 = min level 8 :=
    count_litAtPhase_subFrames level c (le_refl 8)
  have hsplit := Nat.count_add (fun k => litAtPhase level c k) q 32
  rw [Nat.add_comm q 32, Nat.count_add, hfirst] at hsplit
  simp only [hperiod] at hsplit
  omega

/-- Settles O27: 32 ticks are one whole refresh, from whatever phase. -/
theorem ledDutyCycleIsTheLevel : Obligations.LedDutyCycleIsTheLevel := by
  intro s r c
  obtain ⟨t, hrun, hphase, -⟩ := ledTicks_next 32 s
  simp only [refreshPhase] at hphase
  refine ⟨⟨t, hrun, Fin.ext ?_, Fin.ext ?_⟩, ?_⟩
  · omega
  · omega
  · rw [litCount_eq_count, count_litAtPhase_refresh]

end Sys2Proof.Machine
end

section
/-!
PROOFS. The eight consumer commands (43_consumer_commands.md R89 to R96), and the step that runs the one
operation its cycle presents (R97, 30_encoding.md R57).
-/

namespace Sys2Proof.Machine

/-! ## A cycle that presents one operation -/

theorem andThen_pure (o : Host.Outcome State Fault Refusal) : andThen o .next = o := by cases o <;> rfl

theorem runOperations_singleton (op : Except DecodeError Instr) (s : State) :
    runOperations [op] s = runOperation op s := andThen_pure _

theorem tickOperations_eq_nil {p : PinsIn} (hsw : p.swTick = false) (hled : p.ledTick = false) :
    tickOperations p = [] := by rw [tickOperations, hsw, hled]; rfl

/-- A cycle without reset that presents one operation runs it with `rspValid` at 0 (10_state.md R30). -/
theorem step_of_operations_eq_singleton {s : State} {p : PinsIn} {rest : List PinsIn}
    {op : Except DecodeError Instr} (hin : s.inputs = p :: rest) (hr : p.rst = false)
    (hop : operations p = [op]) :
    step s = runOperation op { s with inputs := rest, rspValid := false } := by
  rw [step_of_inputs s p rest hin, runCycle_of_not_rst p _ hr, hop, runOperations_singleton]
  rfl

/-- Settles O3: in each case the operations of the cycle are that one. -/
theorem stepRunsThePresentedOperation : Obligations.StepRunsThePresentedOperation := by
  intro s p rest hin hr
  refine ⟨fun i hc hsw hled hi => ?_, fun hc hsw hled => ?_, fun hc hsw hled => ?_⟩
  · have hop : operations p = [.ok i] := by
      rw [operations_of_command hr hc, hi, tickOperations_eq_nil hsw hled]
    exact step_of_operations_eq_singleton hin hr hop
  · have hop : operations p = [.ok (.swTick p.swColIn)] := by
      rw [operations_of_no_command hr hc, tickOperations, hsw, hled]; rfl
    exact step_of_operations_eq_singleton hin hr hop
  · have hop : operations p = [.ok .ledTick] := by
      rw [operations_of_no_command hr hc, tickOperations, hsw, hled]; rfl
    exact step_of_operations_eq_singleton hin hr hop

/-! ## Words whose reserved operand bits are set (30_encoding.md R52) -/

/-- A word is refused where the row of its OP asks for bits it does not have. -/
theorem exists_decode_error_of_okWhen {w : Word} {b : Bool} {i : Instr} (hrow : decode w = okWhen b i)
    (hb : b ≠ true) : ∃ e, decode w = .error e :=
  ⟨.reservedOperand, by rw [hrow, Bool.eq_false_of_not_eq_true hb, okWhen_false]⟩

/-- A command without operands is refused where IDX or DATA is not 0. -/
theorem exists_decode_error_of_operand {w : Word} {idx data : Nibble} {i : Instr}
    (hrow : decode w = okWhen (idx == 0 && data == 0) i) (h : idx ≠ 0 ∨ data ≠ 0) :
    ∃ e, decode w = .error e :=
  exists_decode_error_of_okWhen hrow (by simpa [imp_iff_not_or] using h)

/-- A command whose one operand is IDX is refused where DATA is not 0. -/
theorem exists_decode_error_of_data {w : Word} {data : Nibble} {i : Instr}
    (hrow : decode w = okWhen (data == 0) i) (h : data ≠ 0) : ∃ e, decode w = .error e :=
  exists_decode_error_of_okWhen hrow (mt beq_iff_eq.mp h)

/-! ## NOP and SET_LEVEL -/

/-- Settles O14: OP = 0 takes no operand. -/
theorem nopOnlyResponds : Obligations.NopOnlyResponds :=
  ⟨rfl, fun idx data => exists_decode_error_of_operand (decode_commandWord 0x0 idx data), fun _ => rfl⟩

/-- Settles O15: a level up to LEVEL_MAX fits its cell. -/
theorem setLevelWritesOneCell : Obligations.SetLevelWritesOneCell := by
  refine ⟨decode_commandWord 0x1, exec_setLevel_badIndex, exec_setLevel_badValue,
    fun i level s hlevel => ⟨_, exec_setLevel_ok i level s hlevel, rfl, rfl, fun j => ?_⟩⟩
  have hfits : level % 2 ^ s.lvl.width.bits = level := Nat.mod_eq_of_lt ((le_levelMax_iff s level).mp hlevel)
  rw [respond_lvl, readLevel_writeLevel, hfits]
  exact if_congr eq_comm rfl rfl

/-! ## GET_LEVEL and GET_SWITCH -/

/-- The level in a response is zero-extended (43_consumer_commands.md R91). -/
theorem zext_levelCell (g : LevelGrid) (i : Cell) :
    zext 12 (levelCell g i) = BitVec.ofNat 12 (readLevel g i) := (BitVec.ofNat_toNat 12 _).symm

/-- Settles O16: the row of GET_LEVEL, and its two responses. -/
theorem getLevelRespondsWithTheLevel : Obligations.GetLevelRespondsWithTheLevel := by
  refine ⟨fun idx => decode_commandWord 0x2 idx 0,
    fun idx data => exists_decode_error_of_data (decode_commandWord 0x2 idx data),
    exec_getLevel_badIndex, fun i s => ?_⟩
  rw [exec_getLevel, zext_levelCell]
  rfl

/-- Settles O17: the row of GET_SWITCH, and its two responses. -/
theorem getSwitchRespondsWithTheConfirmedState : Obligations.GetSwitchRespondsWithTheConfirmedState := by
  refine ⟨fun idx => decode_commandWord 0x3 idx 0,
    fun idx data => exists_decode_error_of_data (decode_commandWord 0x3 idx data),
    exec_getSwitch_badIndex, fun i s => ?_⟩
  rw [exec_getSwitch]
  cases readCell s.conf i <;> rfl

/-! ## READ_PRESS and READ_RELEASE -/

theorem exec_readOf_of_empty {F : Channel} {s : State} (h : (s.fifo F).count = 0) :
    exec (readOf F) s = .next { s with rspValid := true, rsp := 0x1000 } := by
  rw [exec_readOf, fifoReadRespond_of_empty h]

/-- A read of a FIFO that is not empty moves its head on, takes 1 from its count and responds with the slot
the head was at (40_event_fifo.md R62). -/
theorem exec_readOf_of_not_empty {F : Channel} {s : State} (h : (s.fifo F).count ≠ 0) :
    ∃ head : Cell, head.val = ((s.fifo F).head.val + 1) % 12 ∧
      exec (readOf F) s =
        .next { s.setFifo F { s.fifo F with head := head, count := (s.fifo F).count - 1 } with
          rspValid := true
          rsp := (0x0 : Nibble) ++ (0 : Nibble) ++ readCell (s.fifo F).mem (s.fifo F).head } := by
  refine ⟨nextSlot (s.fifo F).head, nextSlot_val _, ?_⟩
  obtain ⟨-, hread⟩ := (fifoReadRespond_cases F s).resolve_left fun hempty => h hempty.1
  rw [exec_readOf, hread, respond, responseWord_ok_byte]
  rfl

/-- Settles O18: a FIFO read of PRESS. -/
theorem readPressRemovesTheOldestPress : Obligations.ReadPressRemovesTheOldestPress :=
  ⟨rfl, fun _ => exec_readOf_of_empty (F := .press), fun _ => exec_readOf_of_not_empty (F := .press)⟩

/-- Settles O19: a FIFO read of RELEASE. -/
theorem readReleaseRemovesTheOldestRelease : Obligations.ReadReleaseRemovesTheOldestRelease :=
  ⟨rfl, fun _ => exec_readOf_of_empty (F := .release), fun _ => exec_readOf_of_not_empty (F := .release)⟩

/-! ## GET_STATUS and CLEAR_ERR -/

/-- Bits [11:10] of the STATUS word read as 0 (10_state.md R31). -/
theorem statusResponse_reserved (s : State) :
    (responseWord .ok (statusWord s)).extractLsb' 10 2 = 0 := by
  refine BitVec.eq_of_getLsbD_eq fun k hk => ?_
  simp only [responseWord, statusWord, BitVec.getLsbD_extractLsb', BitVec.getLsbD_append]
  interval_cases k <;> simp

/-- Settles O20: the fields of the STATUS word in an OK response. -/
theorem getStatusRespondsWithCountsAndFlags : Obligations.GetStatusRespondsWithCountsAndFlags := by
  refine ⟨rfl, fun idx data => exists_decode_error_of_operand (decode_commandWord 0x6 idx data),
    fun s => ⟨_, rfl, rfl, ?_⟩⟩
  obtain ⟨hpress, hrelease, hpressFull, hreleaseFull⟩ := statusResponse_fields s
  exact ⟨hpress, hrelease, hpressFull, hreleaseFull, statusResponse_reserved s, responseWord_status .ok _⟩

/-- Settles O21: the words of the four masks, the reserved bits of the row, and the effect on each flag. -/
theorem clearErrClearsTheSelectedFlags : Obligations.ClearErrClearsTheSelectedFlags := by
  refine ⟨by decide, fun idx data h => ?_, fun mask s => ?_⟩
  · exact exists_decode_error_of_okWhen (decode_commandWord 0x7 idx data)
      (by simpa [imp_iff_not_or] using h)
  · rw [exec_clearErr]
    cases mask.getLsbD 0 <;> cases mask.getLsbD 1 <;> rfl

end Sys2Proof.Machine
end

section
/-!
PROOFS. The status of every command word (60_exceptions.md R101 to R105), and that no step stops the block
(R107).
-/

namespace Sys2Proof.Machine

/-! ## The status of an operation -/

/-- The status an operation completes with, from its operands and the state: BAD_INDEX before BAD_VALUE
(60_exceptions.md R105). ILLEGAL is the decoder's. -/
def completionStatus (s : State) : Instr → Status
  | .setLevel idx level =>
    if 12 ≤ idx then .badIndex else if s.levelMax < level then .badValue else .ok
  | .getLevel idx | .getSwitch idx => if 12 ≤ idx then .badIndex else .ok
  | .readPress => if s.press.count = 0 then .empty else .ok
  | .readRelease => if s.release.count = 0 then .empty else .ok
  | .nop | .getStatus | .clearErr _ | .ledTick | .swTick _ => .ok

/-- From `s` the outcome is a response with the status `st`, and where `st` is not OK the response has
VALUE 0 and is all that changes (60_exceptions.md R99, R107). -/
def CompletesWith (s : State) (st : Status) (o : Host.Outcome State Fault Refusal) : Prop :=
  ∃ v u, o = .next (respond st v u) ∧ (st ≠ .ok → v = 0 ∧ u = s)

theorem completesWith_ok (s : State) (v : Value) (u : State) :
    CompletesWith s .ok (.next (respond .ok v u)) := ⟨v, u, rfl, fun h => absurd rfl h⟩

theorem completesWith_fail (s : State) (st : Status) : CompletesWith s st (.next (fail st s)) :=
  ⟨0, s, rfl, fun _ => ⟨rfl, rfl⟩⟩

/-- An operation that names a cell fails with BAD_INDEX where IDX names none (60_exceptions.md R103). -/
theorem completesWith_of_idx {s : State} {idx : Nat} {st : Status} {o : Host.Outcome State Fault Refusal}
    (hbad : 12 ≤ idx → o = .next (fail .badIndex s))
    (hcell : ∀ c : Cell, idx = c.val → CompletesWith s st o) :
    CompletesWith s (if 12 ≤ idx then .badIndex else st) o := by
  rcases idx_cases idx with ⟨c, hc⟩ | hidx
  · rw [if_neg (Nat.not_le.mpr (hc ▸ c.isLt))]; exact hcell c hc
  · rw [if_pos hidx, hbad hidx]; exact completesWith_fail s .badIndex

theorem fifoReadRespond_completesWith (F : Channel) (s : State) :
    CompletesWith s (if (s.fifo F).count = 0 then .empty else .ok) (.next (fifoReadRespond F s)) := by
  rcases fifoReadRespond_cases F s with ⟨hc, h⟩ | ⟨hc, h⟩ <;> rw [h]
  · rw [if_pos hc]; exact completesWith_fail s .empty
  · rw [if_neg hc]; exact completesWith_ok s _ _

/-- Every command completes with its status. -/
theorem exec_completesWith (i : Instr) (s : State) (hi : (encodeWord i).isSome) :
    CompletesWith s (completionStatus s i) (exec i s) := by
  cases i with
  | nop | getStatus | clearErr mask => exact completesWith_ok s _ _
  | setLevel idx level =>
    refine completesWith_of_idx (exec_setLevel_badIndex idx level s) ?_
    rintro c rfl
    rcases Nat.lt_or_ge s.levelMax level with hl | hl
    · rw [if_pos hl, exec_setLevel_badValue c level s hl]; exact completesWith_fail s .badValue
    · rw [if_neg (Nat.not_lt.mpr hl), exec_setLevel_ok c level s hl]; exact completesWith_ok s _ _
  | getLevel idx =>
    refine completesWith_of_idx (exec_getLevel_badIndex idx s) ?_
    rintro c rfl
    rw [exec_getLevel]; exact completesWith_ok s _ _
  | getSwitch idx =>
    refine completesWith_of_idx (exec_getSwitch_badIndex idx s) ?_
    rintro c rfl
    rw [exec_getSwitch]; exact completesWith_ok s _ _
  | readPress => exact fifoReadRespond_completesWith .press s
  | readRelease => exact fifoReadRespond_completesWith .release s
  | ledTick | swTick cols => cases hi

/-! ## The status of a word, from its fields -/

/-- The fields of a word that spells no command: OP 8 or more, or a reserved field not zero
(60_exceptions.md R102). -/
abbrev ReservedFields (op rsv idx data : Nat) : Prop :=
  8 ≤ op ∨ rsv ≠ 0 ∨ ((op = 0 ∨ op = 4 ∨ op = 5 ∨ op = 6) ∧ (idx ≠ 0 ∨ data ≠ 0)) ∨
    ((op = 2 ∨ op = 3) ∧ data ≠ 0) ∨ (op = 7 ∧ (idx ≠ 0 ∨ 4 ≤ data))

/-- The status of a word with the given fields, in the order of precedence of 60_exceptions.md R105. -/
def fieldStatus (s : State) (op rsv idx data : Nat) : Status :=
  if ReservedFields op rsv idx data then .illegal
  else if (op = 1 ∨ op = 2 ∨ op = 3) ∧ 12 ≤ idx then .badIndex
  else if op = 1 ∧ s.levelMax < data then .badValue
  else if (op = 4 ∧ s.press.count = 0) ∨ (op = 5 ∧ s.release.count = 0) then .empty
  else .ok

/-- The status of a word, read off its fields; `executeWord_completesWith` ties it to the command port. -/
def wordStatus (w : Word) (s : State) : Status :=
  fieldStatus s (opField w).toNat (rsvField w).toNat (idxField w).toNat (dataField w).toNat

theorem wordStatus_commandWord (op idx data : Nibble) (s : State) :
    wordStatus (commandWord op idx data) s = fieldStatus s op.toNat 0 idx.toNat data.toNat := by
  rw [wordStatus, opField_commandWord, rsvField_commandWord, idxField_commandWord, dataField_commandWord]
  rfl

/-- The two reserved bits of a CLEAR_ERR's DATA are 0 exactly when DATA is below 4 (30_encoding.md R51). -/
theorem reservedMaskBits_eq_zero_iff (data : Nibble) :
    data.extractLsb' 2 2 = 0 ↔ data.toNat < 4 := by revert data; decide

theorem eq_false_of_okWhen_error {b : Bool} {i : Instr} {e : DecodeError} (h : okWhen b i = .error e) :
    b = false := by
  cases b with
  | true => cases h
  | false => rfl

/-- A nibble is 0 as bits exactly when it is 0 as a number. -/
theorem nibble_eq_zero_iff (n : Nibble) : n = 0 ↔ n.toNat = 0 := BitVec.toNat_eq

/-- A command word is refused only for its OP or a reserved operand bit. -/
theorem reservedFields_of_decode_commandWord {op idx data : Nibble} {e : DecodeError}
    (h : decode (commandWord op idx data) = .error e) :
    ReservedFields op.toNat 0 idx.toNat data.toNat := by
  rw [decode_commandWord] at h
  split at h
  case isTrue hop => exact .inl hop
  case isFalse hop =>
    generalize op.toNat = n at h hop ⊢
    interval_cases n
    -- The row of OP = 1, SET_LEVEL, reserves no operand bit.
    pick_goal 2
    · cases h
    all_goals
      have hreserved := eq_false_of_okWhen_error h
      simp only [Bool.and_eq_false_iff, beq_eq_false_iff_ne, ne_eq, nibble_eq_zero_iff,
        reservedMaskBits_eq_zero_iff] at hreserved
      simpa [ReservedFields] using hreserved

/-- A word is refused only for one of its fields. -/
theorem reservedFields_of_decode_error {w : Word} {e : DecodeError} (h : decode w = .error e) :
    ReservedFields (opField w).toNat (rsvField w).toNat (idxField w).toNat (dataField w).toNat := by
  by_cases hrsv : rsvField w = 0
  · rw [← commandWord_fields w hrsv] at h
    rw [hrsv]
    exact reservedFields_of_decode_commandWord h
  · exact .inr (.inl (mt (nibble_eq_zero_iff _).mpr hrsv))

/-- A word that decodes has the status of its command. -/
theorem wordStatus_of_decode {w : Word} {i : Instr} (h : decode w = .ok i) (s : State) :
    wordStatus w s = completionStatus s i := by
  obtain ⟨hw, hi⟩ := decode_eq_ok_iff.mp h
  cases i with
  | setLevel idx level =>
    simp only [Instr.wellFormed, Bool.and_eq_true, decide_eq_true_eq] at hi
    cases hw
    rw [wordStatus_commandWord]
    simp [Nat.mod_eq_of_lt, hi, fieldStatus, ReservedFields, completionStatus]
  | getLevel idx | getSwitch idx =>
    simp only [Instr.wellFormed, decide_eq_true_eq] at hi
    cases hw
    rw [wordStatus_commandWord]
    simp [Nat.mod_eq_of_lt, hi, fieldStatus, ReservedFields, completionStatus]
  | clearErr mask =>
    cases hw
    rw [wordStatus_commandWord]
    have hdata := (reservedMaskBits_eq_zero_iff _).mp ((clearErrData_eq_iff _ mask).mp rfl).1
    simpa [fieldStatus, ReservedFields, completionStatus, -BitVec.toNat_append] using hdata
  | ledTick | swTick cols => cases hw
  | nop | readPress | readRelease | getStatus =>
    cases hw
    rw [wordStatus_commandWord]
    simp [fieldStatus, ReservedFields, completionStatus]

/-- Every word completes with the status of its fields. -/
theorem executeWord_completesWith (w : Word) (s : State) :
    CompletesWith s (wordStatus w s) (executeWord w s) := by
  cases h : decode w with
  | error e =>
    rw [executeWord_of_error h, wordStatus, fieldStatus, if_pos (reservedFields_of_decode_error h)]
    exact completesWith_fail s .illegal
  | ok i =>
    rw [executeWord_of_ok h, wordStatus_of_decode h]
    exact exec_completesWith i s (encodeWord_isSome_of_decode h)

/-- With LEVEL_W = 4 every DATA is a level (60_exceptions.md R104). -/
theorem wordStatus_ne_badValue (w : Word) {s : State} (h : s.params.levelW = .four) :
    wordStatus w s ≠ .badValue := by
  have hlevel : (dataField w).toNat ≤ s.levelMax := by
    rw [le_levelMax_iff, ← State.params_levelW, h]
    exact nibble_toNat_lt _
  simp only [wordStatus, fieldStatus, Nat.not_lt.mpr hlevel, and_false, if_false]
  split_ifs <;> decide

/-- The code tells the statuses apart (60_exceptions.md R99). -/
theorem statusCode_injective : Function.Injective statusCode := by
  intro a b; cases a <;> cases b <;> decide

/-- Settles O22: each word completes with the status of its fields, and a status other than OK by a response
with VALUE 0 alone. -/
theorem statusOfEveryWord : Obligations.StatusOfEveryWord := by
  intro w s op rsv idx data illegal badIndex badValue empty status
  have hstatus : statusCode (wordStatus w s) = status := by
    simp only [wordStatus, fieldStatus, apply_ite statusCode]; rfl
  obtain ⟨v, u, hrun, hfail⟩ := executeWord_completesWith w s
  rw [← hstatus]
  refine ⟨_, hrun, rfl, responseWord_status _ v, fun hne => ?_, fun hfour => ?_⟩
  · obtain ⟨rfl, rfl⟩ := hfail (ne_of_apply_ne statusCode hne)
    rfl
  · exact statusCode_injective.ne (wordStatus_ne_badValue w hfour)

/-! ## No step stops the block -/

/-- Settles O43: a reset answers the reset state, and any other cycle its operations' last state. -/
theorem everyStepAnswersANextState : Obligations.EveryStepAnswersANextState := by
  intro s
  rw [step]
  cases hr : (currentPins s).rst with
  | true => exact ⟨_, runCycle_of_rst _ _ hr⟩
  | false =>
    obtain ⟨a, -, -, hcycle⟩ := runCycle_eq_afterTicks (popInput s) hr
    exact ⟨_, hcycle⟩

end Sys2Proof.Machine
end

section
/-!
PROOFS. Reset, the idle cycle, the order of the two ticks, and the rate of events (70_reset_and_hazards.md R114
to R124).
-/

namespace Sys2Proof.Machine

open Sys2Proof.Config

/-! ## Reset and idle cycles -/

/-- Settles O1: the reset state is that of the default build. -/
theorem resetStateHoldsResetValues : Obligations.ResetStateHoldsResetValues :=
  holdsResetValues_resetOf Params.default []

theorem step_of_rst {s : State} {p : PinsIn} {rest : List PinsIn} (hin : s.inputs = p :: rest)
    (hr : p.rst = true) : step s = .next (State.resetOf s.params rest) :=
  (step_of_inputs s p rest hin).trans (runCycle_of_rst p _ hr)

/-- Settles O2: both cycles lead to the reset state of the build. -/
theorem resetCycleAcceptsNothingElse : Obligations.ResetCycleAcceptsNothingElse := by
  intro s p rest hin hr
  refine ⟨State.resetOf s.params rest, step_of_rst hin hr, holdsResetValues_resetOf _ _, rfl, rfl, ?_⟩
  intro q more hrest hq
  exact step_of_rst hrest hq

/-- A cycle that accepts no operation leaves the command port idle, and the rest as it was. -/
theorem runCycle_of_no_operation {p : PinsIn} (s : State) (hr : p.rst = false) (hc : p.cmdValid = false)
    (hsw : p.swTick = false) (hled : p.ledTick = false) : runCycle p s = .next (portIdle s) := by
  rw [runCycle_of_not_rst p s hr, operations_of_no_command hr hc, tickOperations_eq_nil hsw hled]
  rfl

/-- Settles O7: neither cycle has an operation, and where no input waits there is none to take off. -/
theorem idleCycleOnlyEndsTheResponse : Obligations.IdleCycleOnlyEndsTheResponse := by
  refine fun s => ⟨fun p rest hin hr hc hsw hled => ?_, fun hin => ?_⟩
  · rw [step_of_inputs s p rest hin, runCycle_of_no_operation _ hr hc hsw hled]
    rfl
  · have hpins : currentPins s = PinsIn.idle := by rw [currentPins, hin]; rfl
    have hpop : popInput s = s := by cases s; cases hin; rfl
    rw [step, hpins, hpop, runCycle_of_no_operation s rfl rfl rfl rfl]
    rfl

/-! ## The two ticks touch disjoint state -/

theorem fifoWrite_commute_ledTick (F : Channel) (v : Cell) :
    Function.Commute (fifoWrite F v) ledTick := fun s => by
  unfold fifoWrite
  rw [apply_ite ledTick]
  cases F <;> rfl

theorem acceptTransition_commute_ledTick (i : Cell) (v : Bool) :
    Function.Commute (acceptTransition i v) ledTick := fun s =>
  fifoWrite_commute_ledTick (eventChannel v) i { s with conf := writeCell s.conf i v }

/-- The guards of Debounce read nothing that LED_TICK writes, and each branch commutes with it. -/
theorem debounce_commute_ledTick (i : Cell) (v : Bool) :
    Function.Commute (debounce i v) ledTick := fun s => by
  unfold debounce
  rw [apply_ite ledTick, apply_ite ledTick, apply_ite ledTick, acceptTransition_commute_ledTick i v s]
  rfl

theorem scanRow_commute_ledTick (r : Fin 3) (cols : Nibble) : Function.Commute (scanRow r cols) ledTick :=
  have hdeb := debounce_commute_ledTick
  (((hdeb _ _).comp_left (hdeb _ _)).comp_left (hdeb _ _)).comp_left (hdeb _ _)

theorem swTick_commute_ledTick (cols : Nibble) : Function.Commute (swTick cols) ledTick := fun s => by
  rw [swTick, swTick, ledTick_swRowIx, scanRow_commute_ledTick s.swRowIx cols s]
  rfl

/-- Settles O36: the two ticks commute. -/
theorem ticksCommute : Obligations.TicksCommute := fun s cols =>
  ⟨swTick cols s, ledTick s, ledTick (swTick cols s), rfl, rfl, rfl,
    congrArg Host.Outcome.next (swTick_commute_ledTick cols s)⟩

/-! ## How many transitions a run of samples can confirm -/

namespace SwitchCell

variable {T : Nat} {v raw : Bool} {x : SwitchCell}

/-- The least number of samples that ends in a stable reading `v` with the counter at the target: what the
counter lacks and one more, or a run of `T + 2` where the last reading was another. -/
def stableDelay (T : Nat) (v : Bool) (x : SwitchCell) : Nat :=
  if x.last = v then T - x.count + 1 else T + 2

/-- The least number of samples that ends in a confirmed transition to `v`. Where `v` is the confirmed state, the
other value has to be confirmed first, and the `T + 2` samples of a whole run of `v` follow. -/
def confirmDelay (T : Nat) (v : Bool) (x : SwitchCell) : Nat :=
  if x.conf = v then x.stableDelay T (!v) + (T + 2) else x.stableDelay T v

theorem stableDelay_of_stable (h : x.last = v) (hle : T ≤ x.count) : x.stableDelay T v = 1 := by
  rw [stableDelay, if_pos h, Nat.sub_eq_zero_of_le hle]

theorem stableDelay_of_last_ne (h : x.last ≠ v) : x.stableDelay T v = T + 2 := if_neg h

theorem stableDelay_le : x.stableDelay T v ≤ T + 2 := by rw [stableDelay]; split <;> omega

/-- One sample brings a stable reading nearer by one sample at most. -/
theorem stableDelay_le_sample (T : Nat) (x : SwitchCell) (raw v : Bool) :
    x.stableDelay T v ≤ (x.sample T raw).stableDelay T v + 1 := by
  by_cases hraw : raw = x.last
  · rcases Nat.lt_or_ge x.count T with hlt | hle
    · rw [sample_of_lt hraw hlt]
      simp only [stableDelay, hraw]
      split <;> omega
    · rw [sample_of_le hraw hle, stableDelay, stableDelay, hraw]
      exact Nat.le_succ _
  · rw [sample_of_change hraw]
    by_cases hv : raw = v
    · rw [stableDelay_of_last_ne (hv ▸ Ne.symm hraw), stableDelay, if_pos hv]
      exact le_rfl
    · rw [stableDelay_of_last_ne (x := { x with last := raw, count := 0 }) hv]
      exact Nat.le_succ_of_le stableDelay_le

/-- A sample keeps the confirmed state, or confirms its own reading. -/
theorem conf_sample (T : Nat) (x : SwitchCell) (raw : Bool) :
    (x.sample T raw).conf = x.conf ∨ x.confirmsTo T raw raw = true := by
  rw [confirmsTo_iff]
  by_cases hraw : raw = x.last
  · rcases Nat.lt_or_ge x.count T with hlt | hle
    · exact .inl (by rw [sample_of_lt hraw hlt])
    · rw [sample_of_le hraw hle]
      by_cases hconf : x.conf = raw
      · exact .inl hconf.symm
      · exact .inr ⟨rfl, hraw.symm, hle, hconf⟩
  · exact .inl (by rw [sample_of_change hraw])

theorem confirmDelay_of_confirmsTo (h : x.confirmsTo T raw v = true) : x.confirmDelay T v = 1 := by
  obtain ⟨-, hlast, hle, hne⟩ := confirmsTo_iff.mp h
  rw [confirmDelay, if_neg hne, stableDelay_of_stable hlast hle]

/-- After a confirmed transition to `v`, the next one ends two whole runs: of the other value, and of `v`. -/
theorem confirmDelay_sample_of_confirmsTo (h : x.confirmsTo T raw v = true) :
    (x.sample T raw).confirmDelay T v = 2 * (T + 2) := by
  obtain ⟨rfl, hlast, hle, -⟩ := confirmsTo_iff.mp h
  rw [sample_of_le hlast.symm hle, confirmDelay, if_pos rfl, stableDelay_of_last_ne (by simp)]
  omega

/-- One sample brings a confirmed transition nearer by one sample at most. -/
theorem confirmDelay_le_sample (T : Nat) (x : SwitchCell) (raw v : Bool) :
    x.confirmDelay T v ≤ (x.sample T raw).confirmDelay T v + 1 := by
  rcases conf_sample T x raw with hconf | hconfirms
  · have hv := stableDelay_le_sample T x raw v
    have hnot := stableDelay_le_sample T x raw (!v)
    rw [confirmDelay, confirmDelay, hconf]
    split <;> omega
  · by_cases hv : raw = v
    · rw [confirmDelay_of_confirmsTo (hv ▸ hconfirms)]
      omega
    · obtain rfl : raw = !v := Bool.eq_not.mpr hv
      obtain ⟨-, hlast, hle, hne⟩ := confirmsTo_iff.mp hconfirms
      have hbefore : x.confirmDelay T v = 1 + (T + 2) := by
        rw [confirmDelay, if_pos (by simpa using hne), stableDelay_of_stable hlast hle]
      have hafter : (x.sample T !v).confirmDelay T v = T + 2 := by
        rw [sample_of_le hlast.symm hle, confirmDelay, if_neg hv, stableDelay_of_last_ne hv]
      omega

/-- A run shorter than the delay of `v` confirms no transition to `v`. -/
theorem confirmations_of_length_lt {raws : List Bool} (h : raws.length < x.confirmDelay T v) :
    confirmations T v raws x = 0 := by
  induction raws generalizing x with
  | nil => rfl
  | cons raw rest ih =>
    rw [List.length_cons] at h
    have hnot : ¬ x.confirmsTo T raw v = true := fun hconf => by
      rw [confirmDelay_of_confirmsTo hconf] at h
      omega
    have hstep := confirmDelay_le_sample T x raw v
    rw [confirmations, if_neg hnot, ih (by omega)]

/-- Two transitions to `v` are `2 × (T + 2)` samples apart or more, so a run of that many samples confirms one at
most. -/
theorem confirmations_le_one {raws : List Bool} (h : raws.length ≤ 2 * (T + 2)) :
    confirmations T v raws x ≤ 1 := by
  induction raws generalizing x with
  | nil => exact Nat.zero_le 1
  | cons raw rest ih =>
    rw [List.length_cons] at h
    rw [confirmations]
    split
    case isTrue hconf =>
      rw [confirmations_of_length_lt (by rw [confirmDelay_sample_of_confirmsTo hconf]; omega)]
    case isFalse =>
      rw [Nat.zero_add]
      exact ih (by omega)

end SwitchCell

/-! ## The events of a run of SW_TICKs -/

/-- How many SW_TICKs have passed since row `q` was scanned, where row `r` is scanned next. -/
def ticksSinceScan (q r : Fin 3) : Nat := (r - q - 1).val

theorem ticksSinceScan_self (q : Fin 3) : ticksSinceScan q q = 2 := by revert q; decide

theorem ticksSinceScan_nextRow_self (q : Fin 3) : ticksSinceScan q (nextRow q) = 0 := by revert q; decide

theorem ticksSinceScan_nextRow_of_ne {q r : Fin 3} (h : r ≠ q) :
    ticksSinceScan q (nextRow r) = ticksSinceScan q r + 1 := by revert q r; decide

/-- A cell is sampled in every third SW_TICK (41_switch_scanner.md R75). -/
theorem three_mul_length_samplesOf_le (i : Cell) (r : Fin 3) (reads : List Nibble) :
    3 * (samplesOf i r reads).length ≤ reads.length + ticksSinceScan (rowOf i) r := by
  induction reads generalizing r with
  | nil => exact Nat.zero_le _
  | cons cols rest ih =>
    have hrest := ih (nextRow r)
    by_cases hrow : r = rowOf i
    · rw [hrow, ticksSinceScan_nextRow_self] at hrest
      rw [hrow, samplesOf_cons_of_eq rfl, ticksSinceScan_self, List.length_cons, List.length_cons]
      omega
    · rw [ticksSinceScan_nextRow_of_ne hrow] at hrest
      rw [samplesOf_cons_of_ne hrow, List.length_cons]
      omega

theorem confirmCount_le_one (i : Cell) (v : Bool) {reads : List Nibble} {s : State}
    (h : reads.length ≤ 6 * (s.target + 2)) : confirmCount i v reads s ≤ 1 := by
  have hsamples := three_mul_length_samplesOf_le i s.swRowIx reads
  have hphase : ticksSinceScan (rowOf i) s.swRowIx < 3 := Fin.isLt _
  rw [confirmCount_eq_confirmations]
  exact SwitchCell.confirmations_le_one (by omega)

theorem confirmedEvents_length_le (s : State) (cols : Nibble) (v : Bool) :
    (confirmedEvents s cols v).length ≤ 4 := by
  rw [confirmedEvents, List.length_map]
  exact List.length_filter_le _ _

/-- Settles O34: a row has four cells, and each cell of the grid confirms one transition at most. -/
theorem eventRateIsBounded : Obligations.EventRateIsBounded := by
  refine fun s v reads => ⟨fun cols => confirmedEvents_length_le s cols v, fun hlen => ?_⟩
  have hcell : ∀ i, confirmCount i v reads s ≤ 1 := fun i => confirmCount_le_one i v hlen
  refine ⟨hcell, ?_⟩
  have hsum := List.sum_le_card_nsmul ((List.finRange 12).map fun i => confirmCount i v reads s) 1
    (List.forall_mem_map.mpr fun i _ => hcell i)
  simpa using hsum

end Sys2Proof.Machine
end
